-- ==== Sys2Proof/Word.lean ====
section
/-! DEFINITION. The widths of 00_scope.md R9, each under the spec's own word for it. -/

namespace Sys2Proof

/-- A host register, a command word, a row word or a code word: 32 bits (00_scope.md R9). -/
abbrev Word := BitVec 32

/-- One byte of a payload (20_memory.md R33). -/
abbrev Byte := BitVec 8

/-- A channel number in a command or a port request: 8 bits, unsigned (00_scope.md R9). -/
abbrev Channel := BitVec 8

/-- A requested or stored brightness: 7 bits, unsigned (00_scope.md R9). -/
abbrev Brightness := BitVec 7

/-- A pulse count in a row: 4 bits (00_scope.md R9). -/
abbrev PulseCount := BitVec 4

/-- The index of a word of the host register window: 4 bits (20_memory.md R40). -/
abbrev WordIndex := BitVec 4

end Sys2Proof
end

