-- ==== Sys2Proof/Syntax.lean ====
section
/-! DEFINITION. The commands of spec/opcode_table.json, one constructor a row, and the enumerations of 00_scope.md R12. -/

namespace Sys2Proof

/-- `Power ∈ {Off, On}` (00_scope.md R12). -/
inductive Power where
  | off
  | on
  deriving DecidableEq, Repr, Inhabited

/-- `Operation ∈ {On, Off, DimUp, DimDown}` (00_scope.md R12, 30_encoding.md R50). -/
inductive Operation where
  | on
  | off
  | dimUp
  | dimDown
  deriving DecidableEq, Repr, Inhabited

/-- The three commands (30_encoding.md R55). The field widths make every value of this type a legal command
(R56: a field's range is checked by the command's rule, not by the decoder). -/
inductive Instr where
  /-- `REQUEST_STATE ch, dp, sb, db`, format R (30_encoding.md R53, 42_controller.md R77). `db` may hold anything
  when `sb` is false. -/
  | requestState (ch : Channel) (dp : Power) (sb : Bool) (db : Brightness)
  /-- `LOOKUP ch, op, sub`, format T (30_encoding.md R54, 40_pulse_table.md R64). `sub` is true for sub-index 1. -/
  | lookup (ch : Channel) (op : Operation) (sub : Bool)
  /-- `ENCODE ch, op, sub`, format T (30_encoding.md R54, 41_encoder.md R75). -/
  | encode (ch : Channel) (op : Operation) (sub : Bool)
  deriving DecidableEq, Repr

end Sys2Proof
end

