-- ==== Sys2Proof/Config.lean ====
section
/-! DEFINITION. What is fixed when the block is built (00_scope.md R7), what the block's surroundings can do to it
(60_exceptions.md R118), and the free values: the arguments nobody gives and the schedule nobody fixes. -/

namespace Sys2Proof

/-- The parameters of 00_scope.md R7. They are given at construction and never change (10_state.md R31). -/
structure Config where
  /-- `NUM_LIGHTS`, 0 to 256. -/
  numLights : Nat
  /-- `PULSE_TABLE`: the ROM's row words in index order, `6 × NUM_LIGHTS` of them (40_pulse_table.md R61). -/
  pulseTable : List Word
  /-- `DIM_STEP_DELAY`, a duration above 0 in a unit the spec leaves open. No rule reads it (43_sequencer.md R98). -/
  dimStepDelay : Nat
  deriving DecidableEq, Repr, Inhabited

/-- What the transmission port answers: `OK` or `TransmitError` (43_sequencer.md R94). -/
inductive TxResponse where
  | ok
  | transmitError
  deriving DecidableEq, Repr, Inhabited

/-- What the state-change sink answers: `OK` or `PublishError` (43_sequencer.md R96). -/
inductive PubResponse where
  | ok
  | publishError
  deriving DecidableEq, Repr, Inhabited

/-- One atomic step of one agent (60_exceptions.md R118), with the value that agent brings: a host access's word
index and data, or a port's response, which is a draw under no law. -/
inductive Event where
  /-- The host performs `RegWrite(k, v)` (44_host_registers.md R104, R105, R108, R109). -/
  | hostWrite (k : WordIndex) (v : Word)
  /-- The host performs `RegRead(k)` (44_host_registers.md R107). -/
  | hostRead (k : WordIndex)
  /-- A bridge from a byte-addressed bus brings a write of `size` bytes at byte address `addr` (20_memory.md R40). -/
  | busWrite (addr size : Nat) (v : Word)
  /-- A bridge from a byte-addressed bus brings a read of `size` bytes at byte address `addr` (20_memory.md R40). -/
  | busRead (addr size : Nat)
  /-- The sequencer takes its `EXEC` step or the expiry of the dim-step delay (43_sequencer.md R99, R101). -/
  | sequencer
  /-- The transmission port delivers its response (43_sequencer.md R100, R101). -/
  | txPort (resp : TxResponse)
  /-- The state-change sink delivers its response (43_sequencer.md R102). -/
  | sink (resp : PubResponse)
  /-- The reset step (70_reset_and_hazards.md R124). -/
  | reset
  deriving DecidableEq, Repr, Inhabited

/-- The construction arguments of the block that `State.reset` builds. The spec gives them no value (00_scope.md R7,
91_not_in_source.md N3, N4), so nothing is known of this constant (notes/assumptions/4.md; DESIGN CHOICE, safe). -/
opaque Config.chosen : Config

/-- FREE VALUE: which agent steps next, and with what, once the schedule a state carries has run out. The spec fixes
no order among the agents and no law for the responses (60_exceptions.md R119, 43_sequencer.md R94, R96), so nothing
is known of this function (notes/assumptions/1.md; safe). -/
opaque Config.freeEvent : Nat → Event

end Sys2Proof
end

