-- ==== Sys2Proof/Decode.lean ====
section
/-! DEFINITION. The encoded formats the block reads (30_encoding.md R48): the command word, with its decoder and its
encoder, and the ROM row word, with its fields and the `ROW` directive that writes one. The payload, which the block
only writes, is in Machine/Encoder.lean. -/

namespace Sys2Proof

/-! ## Enumerations as bits -/

/-- On is 1, Off is 0 wherever a power bit appears (00_scope.md R12). -/
def Power.bit : Power → BitVec 1
  | .off => 0
  | .on => 1

def Power.ofBit (b : BitVec 1) : Power := if b = 1 then .on else .off

/-- The operation codes of 30_encoding.md R50. -/
def Operation.code : Operation → BitVec 2
  | .on => 0
  | .off => 1
  | .dimUp => 2
  | .dimDown => 3

/-- All four codes are used (30_encoding.md R50). -/
def Operation.ofCode (c : BitVec 2) : Operation :=
  if c = 0 then .on else if c = 1 then .off else if c = 2 then .dimUp else .dimDown

def boolBit (b : Bool) : BitVec 1 := if b then 1 else 0

/-! ## The command word -/

/-- `w[31:28]` (30_encoding.md R52). -/
def opcodeOf (w : Word) : BitVec 4 := w.extractLsb' 28 4

/-- `w[23:16]` (30_encoding.md R53, R54). -/
def channelOf (w : Word) : Channel := w.extractLsb' 16 8

/-- `w[15]` (30_encoding.md R53). -/
def desiredPowerOf (w : Word) : Power := Power.ofBit (w.extractLsb' 15 1)

/-- `w[14]` (30_encoding.md R53). -/
def setBrightnessOf (w : Word) : Bool := w.getLsbD 14

/-- `w[6:0]` (30_encoding.md R53). -/
def desiredBrightnessOf (w : Word) : Brightness := w.extractLsb' 0 7

/-- `w[13:12]` (30_encoding.md R54). -/
def operationOf (w : Word) : Operation := Operation.ofCode (w.extractLsb' 12 2)

/-- `w[8]` (30_encoding.md R54). -/
def subIndexOf (w : Word) : Bool := w.getLsbD 8

/-- The bits of a format R word that must be 0 (30_encoding.md R55). -/
def reservedR : Word := 0x0F00_3F80

/-- The bits of a format T word that must be 0 (30_encoding.md R55). -/
def reservedT : Word := 0x0F00_CEFF

/-- Why a word is no command. The block reports both as `IllegalCommand` (30_encoding.md R55). -/
inductive DecodeError where
  /-- The opcode is `0x0` or one of `0x4` to `0xF`. -/
  | reservedOpcode
  /-- The opcode is a command's and a bit of its reserved-bit mask is set. -/
  | reservedBit
  deriving DecidableEq, Repr

/-- The decoder: total on 32-bit words (30_encoding.md R55). -/
def decode (w : Word) : Except DecodeError Instr :=
  if opcodeOf w = 1 then
    if w &&& reservedR = 0 then
      .ok (.requestState (channelOf w) (desiredPowerOf w) (setBrightnessOf w) (desiredBrightnessOf w))
    else .error .reservedBit
  else if opcodeOf w = 2 then
    if w &&& reservedT = 0 then .ok (.lookup (channelOf w) (operationOf w) (subIndexOf w))
    else .error .reservedBit
  else if opcodeOf w = 3 then
    if w &&& reservedT = 0 then .ok (.encode (channelOf w) (operationOf w) (subIndexOf w))
    else .error .reservedBit
  else .error .reservedOpcode

/-- A format T word: opcode, 4 zeros, `CH`, 2 zeros, `OP`, 3 zeros, `SUB`, 8 zeros (30_encoding.md R54). -/
def formatT (opcode : BitVec 4) (ch : Channel) (op : Operation) (sub : Bool) : Word :=
  opcode ++ 0#4 ++ ch ++ 0#2 ++ op.code ++ 0#3 ++ boolBit sub ++ 0#8

/-- The encoder: a command's one word (30_encoding.md R53, R54, R58). -/
def encode : Instr → Word
  | .requestState ch dp sb db => 1#4 ++ 0#4 ++ ch ++ dp.bit ++ boolBit sb ++ 0#7 ++ db
  | .lookup ch op sub => formatT 2 ch op sub
  | .encode ch op sub => formatT 3 ch op sub

/-- What the decoder reads from a word given as the opcode table numbers its bits. A command is one 32-bit word
(30_encoding.md R58), so bits above `nbits` are 0. -/
def decodeTableWord (nbits w : Nat) : Option Instr := (decode (BitVec.ofNat 32 (w % 2 ^ nbits))).toOption

/-! ## The ROM row word -/

/-- The field `V` of a row word: a row is configured in this slot (30_encoding.md R49). -/
def rowValid (w : Word) : Bool := w.getLsbD 31

/-- The field `LEN` of a row word (30_encoding.md R49). -/
def rowLen (w : Word) : Nat := (w.extractLsb' 28 3).toNat

/-- Count `k` of a row word, `word[27−4k : 24−4k]`, for `k` in 0 to 6 (30_encoding.md R49). -/
def rowCount (w : Word) (k : Nat) : PulseCount := w.extractLsb' (24 - 4 * k) 4

/-- `Row(w)`: the first `LEN` counts, in order (30_encoding.md R49, 40_pulse_table.md R63). -/
def rowOf (w : Word) : List PulseCount := (List.range (rowLen w)).map (rowCount w)

/-- A row word is well-formed: an empty slot, or a configured row of 1 to 7 counts, each above 0, with the unused
counts 0 (30_encoding.md R51). -/
def rowWordWf (w : Word) : Bool :=
  w == 0 ||
    (rowValid w && decide (1 ≤ rowLen w) &&
      (List.range 7).all fun k => if k < rowLen w then rowCount w k != 0 else rowCount w k == 0)

/-- The sum of `c_k << (24 − 4k)` over the counts from index `k` on (30_encoding.md R59). -/
def rowCountBits : List PulseCount → Nat → Word
  | [], _ => 0
  | c :: cs, k => c.setWidth 32 <<< (24 - 4 * k) ||| rowCountBits cs (k + 1)

/-- `ROW c0, …, c(n−1)`: the row word of 1 to 7 counts (30_encoding.md R59). -/
def rowWord (row : List PulseCount) : Word :=
  0x8000_0000 ||| BitVec.ofNat 32 row.length <<< 28 ||| rowCountBits row 0

/-- `EMPTY` (30_encoding.md R59). -/
def emptyRowWord : Word := 0

end Sys2Proof
end

