-- ==== Sys2Proof/WellFormed.lean ====
section
/-! DEFINITION. What the block can be built from: a well-formed image and legal parameters (30_encoding.md R51,
00_scope.md R7). A command needs no check beside its fields' widths (30_encoding.md R56), so there is none here. -/

namespace Sys2Proof

/-- The pulse-table ROM: 32-bit row words at the indices 0, 1, 2, … (20_memory.md R33, R36). -/
abbrev Memory := List Word

/-- A `PULSE_TABLE` image is well-formed when it has `6 · NUM_LIGHTS` words and every one is well-formed
(30_encoding.md R51, 40_pulse_table.md R61). -/
def Memory.wf (numLights : Nat) (m : Memory) : Bool := m.length == 6 * numLights && m.all rowWordWf

/-- The construction premise: `0 ≤ NUM_LIGHTS ≤ 256`, a well-formed image, a positive delay (00_scope.md R7). -/
def Config.wf (c : Config) : Bool :=
  decide (c.numLights ≤ 256) && Memory.wf c.numLights c.pulseTable && decide (0 < c.dimStepDelay)

/-- The smallest legal arguments: no lights and an empty table. -/
def Config.smallest : Config := { numLights := 0, pulseTable := [], dimStepDelay := 1 }

/-- The arguments `State.reset` builds the block from: `Config.chosen` when a block can be built from it, which is
every legal choice of arguments and no other (notes/assumptions/4.md). -/
def Config.built : Config := if Config.chosen.wf then Config.chosen else Config.smallest

end Sys2Proof
end

