-- ==== Sys2Proof/Machine/State.lean ====
section
/-! DEFINITION. Everything the spec gives the machine (10_state.md), as plain data, and the machine right after reset
(70_reset_and_hazards.md R124). -/

namespace Sys2Proof.Machine

/-- An entry of the light-state array (10_state.md R15). -/
structure LightState where
  power : Power
  brightness : Brightness
  deriving DecidableEq, Repr, Inhabited

/-- The error codes 0 to 7 of `STATUS.ERR` (60_exceptions.md R112). Codes 8 to 15 are never produced, so they have
no name here. -/
inductive ErrorCode where
  | ok
  | invalidChannel
  | unsupportedOperation
  | brightnessOutOfRange
  | rowTooLong
  | transmitError
  | configurationMissing
  | illegalCommand
  deriving DecidableEq, Repr, Inhabited

/-- The fields of `STATUS` that are stored (10_state.md R21). `BUSY` is not among them: it reads 1 exactly when the
phase is not `IDLE` (44_host_registers.md R104, R107). The reserved bits are set by nothing and read 0. -/
structure Status where
  done : Bool
  err : ErrorCode
  pubErr : Bool
  overrun : Bool
  /-- The power leg of the current or last request committed. -/
  pLeg : Bool
  /-- The brightness leg of the current or last request committed. -/
  bLeg : Bool
  deriving DecidableEq, Repr

/-- All fields 0. -/
def Status.clear : Status :=
  { done := false, err := .ok, pubErr := false, overrun := false, pLeg := false, bLeg := false }

/-- Where the sequencer is: this block's stand-in for a program counter (10_state.md R28). -/
inductive Phase where
  | idle
  | exec
  | onOffTx
  | dimTx0
  | dimTx1
  | dimDelay
  | pub
  deriving DecidableEq, Repr, Inhabited

/-- Which leg of a request is in progress (10_state.md R27). -/
inductive Leg where
  | power
  | brightness
  deriving DecidableEq, Repr, Inhabited

/-- A transmission-port request `send(payload, repeat, delay_between)` (43_sequencer.md R93). -/
structure TxRequest where
  payload : List Byte
  repeatCount : Nat
  delayBetween : Nat
  deriving DecidableEq, Repr

/-- A state-change-sink request `publish(channel, power, brightness)` (43_sequencer.md R95). -/
structure StateUpdate where
  channel : Channel
  power : Power
  brightness : Brightness
  deriving DecidableEq, Repr

/-- The whole state of the block, the parameters it was built with, and the model's own three fields at the end. -/
structure State where
  /-- The construction parameters: configuration, which no step changes (10_state.md R31; notes/assumptions/3.md). -/
  cfg : Config
  /-- `LS`: one entry a channel, `NUM_LIGHTS` of them (10_state.md R15). -/
  ls : List LightState
  /-- `CMD`: the last accepted command word (10_state.md R20). -/
  cmd : Word
  status : Status
  /-- `RESULT0` (10_state.md R22). -/
  result0 : Word
  /-- `QSEL[7:0]`; bits 31:8 have no storage (10_state.md R23). -/
  qsel : Channel
  phase : Phase
  /-- `cmd_ch`, `cmd_dp`, `cmd_sb`, `cmd_db`: the fields of the executing request (10_state.md R27). -/
  cmdCh : Channel
  cmdDp : Power
  cmdSb : Bool
  cmdDb : Brightness
  leg : Leg
  /-- The operation of the sequence in progress. -/
  op : Operation
  /-- The code words of the payloads being sent; `code1` is used only by Dim sequences. -/
  code0 : Word
  code1 : Word
  /-- Dim steps still to send. -/
  stepsLeft : BitVec 7
  /-- The transmission-port request outstanding, if any. -/
  txOut : Option TxRequest
  /-- The state-change-sink request outstanding, if any. -/
  pubOut : Option StateUpdate
  /-- The dim-step timer is running. -/
  delayRun : Bool
  /-- THE MODEL'S OWN: what the last host read returned, none before any (notes/assumptions/5.md). -/
  readData : Option Word
  /-- THE MODEL'S OWN: the agents' coming steps, the next one first (notes/assumptions/1.md). -/
  schedule : List Event
  /-- THE MODEL'S OWN: how many steps have been drawn from `Config.freeEvent` (notes/assumptions/1.md). -/
  drawn : Nat
  deriving DecidableEq, Repr

/-- Why the machine stops: for no reason at all. No error transfers control or stops the block; each is a value of
`STATUS.ERR` when a command ends (60_exceptions.md R110), so this type has no member and nothing raises one (safe). -/
inductive Fault where
  deriving DecidableEq, Repr

/-- What the model gives no meaning. -/
inductive Refusal where
  /-- Raised by an arm of `exec` whose instruction has no meaning yet; no arm raises it (safe). -/
  | notModelled (mnemonic : String)
  /-- Raised by `busAccess` on an access through a byte-addressed bridge that is not four bytes at a multiple of four:
  a model refuses it (20_memory.md R40, 93_implementation_defined.md I17; safe). -/
  | subWordAccess
  /-- Raised by `busAccess` on a word at byte address 64 or above: everything beyond the 16-word window is the
  platform's concern (20_memory.md R43; safe). -/
  | outsideWindow
  /-- Raised by `State.construct` on an ill-formed image or on parameters out of range: a model refuses to construct
  the block from them (30_encoding.md R51, 93_implementation_defined.md I18; safe). -/
  | illFormedImage
  deriving DecidableEq, Repr

/-- The reset value of a light-state entry (10_state.md R16). -/
def LightState.initial : LightState := { power := .off, brightness := 0 }

/-- The block built from `c`, right after reset: every item at its reset value (70_reset_and_hazards.md R124,
10_state.md R16, R19 to R23, R27). -/
def State.powerOn (c : Config) : State :=
  { cfg := c
    ls := List.replicate c.numLights LightState.initial
    cmd := 0
    status := Status.clear
    result0 := 0
    qsel := 0
    phase := .idle
    cmdCh := 0
    cmdDp := .off
    cmdSb := false
    cmdDb := 0
    leg := .power
    op := .on
    code0 := 0
    code1 := 0
    stepsLeft := 0
    txOut := none
    pubOut := none
    delayRun := false
    readData := none
    schedule := []
    drawn := 0 }

/-- The machine right after reset, built from the arguments nobody gives (70_reset_and_hazards.md R124, R127). -/
def State.reset : State := State.powerOn Config.built

/-- Construction (70_reset_and_hazards.md R127): the block is built from a well-formed image and legal parameters,
and a model refuses to construct it from any other (30_encoding.md R51). -/
def State.construct (c : Config) : Host.Outcome State Fault Refusal :=
  if c.wf then .next (State.powerOn c) else .refused .illFormedImage

end Sys2Proof.Machine
end

