-- ==== Sys2Proof/Machine/Flags.lean ====
section
/-! DEFINITION. `STATUS`: the error codes, the word a read returns, and what sets and clears its fields
(10_state.md R21, 60_exceptions.md R112). -/

namespace Sys2Proof.Machine

/-- The code of an error in `STATUS.ERR` (60_exceptions.md R112). -/
def ErrorCode.code : ErrorCode → BitVec 4
  | .ok => 0
  | .invalidChannel => 1
  | .unsupportedOperation => 2
  | .brightnessOutOfRange => 3
  | .rowTooLong => 4
  | .transmitError => 5
  | .configurationMissing => 6
  | .illegalCommand => 7

/-- `STATUS.BUSY`: 1 exactly when the phase is not `IDLE` (44_host_registers.md R104, R107). -/
def State.busy (s : State) : Bool := s.phase != .idle

/-- The word `STATUS` reads as: `BUSY` bit 0, `DONE` 1, `ERR` 7:4, `PUBERR` 8, `OVERRUN` 9, `PLEG` 10, `BLEG` 11, the
rest 0 (10_state.md R21). -/
def statusWord (busy : Bool) (st : Status) : Word :=
  0#20 ++ boolBit st.bLeg ++ boolBit st.pLeg ++ boolBit st.overrun ++ boolBit st.pubErr ++ st.err.code ++ 0#2 ++
    boolBit st.done ++ boolBit busy

/-- `finish(e)` writes `ERR` and `DONE` and leaves the other fields (60_exceptions.md R111). -/
def Status.finished (st : Status) (e : ErrorCode) : Status := { st with err := e, done := true }

/-- A commit of a leg sets its bit (43_sequencer.md R100, R101). -/
def Status.committed (st : Status) : Leg → Status
  | .power => { st with pLeg := true }
  | .brightness => { st with bLeg := true }

/-- The sink's response sets `PUBERR` if it is `PublishError`, and nothing else (43_sequencer.md R96). -/
def Status.published (st : Status) : PubResponse → Status
  | .ok => st
  | .publishError => { st with pubErr := true }

/-- A refused `CMD` write sets `OVERRUN` (44_host_registers.md R105). -/
def Status.overrunSet (st : Status) : Status := { st with overrun := true }

end Sys2Proof.Machine
end

