-- ==== Sys2Proof/Machine/Constants.lean ====
section
/-! DEFINITION. The constants of 00_scope.md R8. -/

namespace Sys2Proof.Machine

/-- `DIM_LEVELS` (00_scope.md R8). -/
def dimLevels : Nat := 64

/-- `PREAMBLE` (00_scope.md R8). -/
def preamble : List Byte := [0x54, 0x2A, 0xAA, 0xA5, 0x55, 0x55]

/-- `CODE_INIT` (00_scope.md R8). -/
def codeInit : Word := 0x4000_0000

/-- `CURSOR_INIT` (00_scope.md R8): an unbounded integer (R10). -/
def cursorInit : Int := 27

/-- `CODE_SLOTS`: the bit positions 27 down to 0 (00_scope.md R8). -/
def codeSlots : Nat := 28

/-- `MAX_ROW_LEN` (00_scope.md R8). -/
def maxRowLen : Nat := 7

/-- `ONOFF_REPEAT` (00_scope.md R8). -/
def onOffRepeat : Nat := 4

/-- `ONOFF_DELAY`: no inter-repeat delay (00_scope.md R8). -/
def onOffDelay : Nat := 0

/-- The repeat of each send of a dim step (43_sequencer.md R91). -/
def dimRepeat : Nat := 1

/-- The `delay_between` of each send of a dim step (43_sequencer.md R91, R93). -/
def dimDelay : Nat := 0

/-- The row slots of one channel (40_pulse_table.md R61). -/
def slotsPerChannel : Nat := 6

end Sys2Proof.Machine
end

