-- ==== Sys2Proof/Machine/Operands.lean ====
section
/-! DEFINITION. Operand forms: the ROM slot an (operation, sub-index) pair names (40_pulse_table.md R61, R62), and the
window word a byte address of a bridge names (20_memory.md R40). -/

namespace Sys2Proof.Machine

/-- The row slot of an (operation, sub-index) pair; On and Off have none for sub-index 1 (40_pulse_table.md R61). -/
def slotOf : Operation → Bool → Option Nat
  | .on, false => some 0
  | .off, false => some 1
  | .dimUp, false => some 2
  | .dimUp, true => some 3
  | .dimDown, false => some 4
  | .dimDown, true => some 5
  | .on, true => none
  | .off, true => none

/-- The ROM index of slot `s` of channel `ch`: `6·ch + s` (40_pulse_table.md R61). -/
def romIndex (ch : Channel) (slot : Nat) : Nat := slotsPerChannel * ch.toNat + slot

/-- The power as an On/Off sequence's operation (42_controller.md R77, line 4). -/
def powerOperation : Power → Operation
  | .on => .on
  | .off => .off

/-- The window word that a bridged access of `size` bytes at byte address `addr` names: byte address `4k` is word `k`
(20_memory.md R40). A narrower, wider or misaligned access, and one beyond the window, is refused. -/
def busWord (addr size : Nat) : Except Refusal WordIndex :=
  if size = 4 ∧ addr % 4 = 0 then
    if addr / 4 < 16 then .ok (BitVec.ofNat 4 (addr / 4)) else .error .outsideWindow
  else .error .subWordAccess

end Sys2Proof.Machine
end

