-- ==== Sys2Proof/Machine/Ops.lean ====
section
/-! DEFINITION. The named operations over the light states, the ROM, the ports and the ends of a command
(00_scope.md R11): what every command and every step of the sequencer is written with. -/

namespace Sys2Proof.Machine

/-! ## The light-state array -/

/-- `LS[ch]`. A channel without an entry is read by no rule; it reads as an initial entry (notes/assumptions/10.md). -/
def State.light (s : State) (ch : Channel) : LightState := s.ls.getD ch.toNat LightState.initial

/-- `LS[ch] <- l`: both fields of one entry in one step (10_state.md R17). -/
def State.setLight (s : State) (ch : Channel) (l : LightState) : State := { s with ls := s.ls.set ch.toNat l }

/-- The `QSTATE` format of an entry: bit 31 `VALID`, bit 8 `POWER`, bits 6:0 `BRIGHTNESS` (10_state.md R24). -/
def lightWord (l : LightState) : Word := 1#1 ++ 0#22 ++ l.power.bit ++ 0#1 ++ l.brightness

/-- The `QSTATE`-format snapshot of `LS[ch]`, or 0 where there is no such channel (10_state.md R22, R24). -/
def State.snapshot (s : State) (ch : Channel) : Word :=
  if ch.toNat < s.cfg.numLights then lightWord (s.light ch) else 0

/-! ## The pulse-table ROM and its indexer -/

/-- `RomRead(i)`: row word `i` of the pulse table (20_memory.md R36). The indexer reads only below `6·NUM_LIGHTS`;
past the image's end there is no word, and the model reads an empty slot (notes/assumptions/10.md). -/
def romRead (c : Config) (i : Nat) : Word := c.pulseTable.getD i 0

/-- `Lookup(ch, op, sub)`: `some w` for `Hit(w)`, `none` for `Miss` (40_pulse_table.md R62). -/
def lookupRow (c : Config) (ch : Channel) (op : Operation) (sub : Bool) : Option Word :=
  if c.numLights ≤ ch.toNat then none
  else
    match slotOf op sub with
    | none => none
    | some slot =>
      if rowValid (romRead c (romIndex ch slot)) then some (romRead c (romIndex ch slot)) else none

/-! ## The start and the end of a command -/

/-- Accepting a command word: latch it, clear `STATUS` and `RESULT0`, and let the sequencer decode it
(44_host_registers.md R104). -/
def accept (v : Word) (s : State) : State :=
  { s with cmd := v, status := Status.clear, result0 := 0, phase := .exec }

/-- `finish(e)`: end the executing command with error code `e` (60_exceptions.md R111). This is the block's form of
raising an exception (00_scope.md R11): no control is transferred, and the block returns to `IDLE`. -/
def finish (e : ErrorCode) (s : State) : State :=
  { s with
    status := s.status.finished e
    txOut := none
    pubOut := none
    delayRun := false
    phase := .idle }

/-- `finish(e)` of a command that has written its result first (60_exceptions.md R111, 44_host_registers.md R106). -/
def finishWith (result : Word) (e : ErrorCode) (s : State) : State := finish e { s with result0 := result }

/-- `finish(e)` of a `REQUEST_STATE`: the result is the snapshot of `LS[cmd_ch]` at the finish, or 0 for an invalid
channel (60_exceptions.md R111). -/
def finishRequest (e : ErrorCode) (s : State) : State := finishWith (s.snapshot s.cmdCh) e s

/-- An undecodable command word: `RESULT0 = 0`, `ERR = 7`, nothing else (30_encoding.md R55, 43_sequencer.md R99). -/
def illegalCommand (s : State) : State := finishWith 0 .illegalCommand s

/-! ## The ports and the timer -/

/-- `tx_out <- send(payload, repeat, delay)`, entering the phase that waits for its response (43_sequencer.md R93). -/
def issueSend (payload : List Byte) (count delay : Nat) (p : Phase) (s : State) : State :=
  { s with
    txOut := some { payload := payload, repeatCount := count, delayBetween := delay }
    phase := p }

/-- A commit: `LS[cmd_ch]` takes `l`, the leg's bit is set, and the state written is published, all in one step
(43_sequencer.md R95, R100, R101). -/
def commitAndPublish (l : LightState) (leg : Leg) (s : State) : State :=
  { s.setLight s.cmdCh l with
    status := s.status.committed leg
    pubOut := some { channel := s.cmdCh, power := l.power, brightness := l.brightness }
    phase := .pub }

/-! ## Reset -/

/-- The reset step: every item at its reset value, the parameters and the ROM unchanged (70_reset_and_hazards.md R124).
The schedule and its counter belong to the block's surroundings and go on (notes/assumptions/1.md). -/
def resetStep (s : State) : State := { State.powerOn s.cfg with schedule := s.schedule, drawn := s.drawn }

end Sys2Proof.Machine
end

