-- ==== Sys2Proof/Machine/Encoder.lean ====
section
/-! DEFINITION. The OOK bitstream encoder and the payload (41_encoder.md R68 to R74). -/

namespace Sys2Proof.Machine

/-- `W`: the positions a row consumes, `2c + 1` for each count `c` (41_encoder.md R69, R70). -/
def rowWidth (row : List PulseCount) : Nat := (row.map fun c => 2 * c.toNat + 1).sum

/-- `1 << bit` as 32 bits. The cursor is 2 or more wherever the encoder sets a bit (41_encoder.md R70). -/
def bitAt (bit : Int) : Word := 1#32 <<< bit.toNat

/-- `c` pulses: set the bit at the cursor and move the cursor two positions down, `c` times (41_encoder.md R70). -/
def placePulses : Nat → Word → Int → Word × Int
  | 0, code, bit => (code, bit)
  | c + 1, code, bit => placePulses c (code ||| bitAt bit) (bit - 2)

/-- The counts of a row in order, each followed by a separator of one position (41_encoder.md R69, R70). -/
def placeRow : List PulseCount → Word → Int → Word × Int
  | [], code, bit => (code, bit)
  | c :: cs, code, bit =>
    placeRow cs (placePulses c.toNat code bit).1 ((placePulses c.toNat code bit).2 - 1)

/-- `Encode(row)`: `some code` for `Code(code)`, `none` for `RowTooLong` (41_encoder.md R70, R72). -/
def encodeRow (row : List PulseCount) : Option Word :=
  if codeSlots < rowWidth row then none else some (placeRow row codeInit cursorInit).1

/-- `Payload(code)`: the preamble, the code's four bytes from the most significant down, and a zero byte
(41_encoder.md R71, 30_encoding.md R57, 20_memory.md R37). -/
def payload (code : Word) : List Byte :=
  preamble ++ [code.extractLsb' 24 8, code.extractLsb' 16 8, code.extractLsb' 8 8, code.extractLsb' 0 8, 0]

end Sys2Proof.Machine
end

