-- ==== Sys2Proof/Machine/Diagnostic.lean ====
section
/-! DEFINITION. The format T commands, which read the table and the encoder without transmitting: `LOOKUP`
(40_pulse_table.md R64) and `ENCODE` (41_encoder.md R75). -/

namespace Sys2Proof.Machine

/-- The state after `LOOKUP ch, op, sub` (40_pulse_table.md R64). -/
def lookupCommand (ch : Channel) (op : Operation) (sub : Bool) (s : State) : State :=
  match lookupRow s.cfg ch op sub with
  | some w => finishWith w .ok s
  | none => finishWith 0 .configurationMissing s

/-- `LOOKUP` (40_pulse_table.md R64). -/
def execLookup (ch : Channel) (op : Operation) (sub : Bool) (s : State) : Host.Outcome State Fault Refusal :=
  .next (lookupCommand ch op sub s)

/-- The state after `ENCODE ch, op, sub` (41_encoder.md R75). -/
def encodeCommand (ch : Channel) (op : Operation) (sub : Bool) (s : State) : State :=
  match lookupRow s.cfg ch op sub with
  | none => finishWith 0 .configurationMissing s
  | some w =>
    match encodeRow (rowOf w) with
    | none => finishWith 0 .rowTooLong s
    | some code => finishWith code .ok s

/-- `ENCODE` (41_encoder.md R75). -/
def execEncode (ch : Channel) (op : Operation) (sub : Bool) (s : State) : Host.Outcome State Fault Refusal :=
  .next (encodeCommand ch op sub s)

end Sys2Proof.Machine
end

