-- ==== Sys2Proof/Machine/Request.lean ====
section
/-! DEFINITION. `REQUEST_STATE` up to its first wait: the entry checks, the choice of legs and the start of a sequence
(42_controller.md R77 to R85, 43_sequencer.md R90, R91, R99). What follows each wait is in Machine/Sequencer.lean. -/

namespace Sys2Proof.Machine

/-- `StartOnOff(lg, o)` (43_sequencer.md, section 5; the first part of R90). -/
def startOnOff (lg : Leg) (o : Operation) (s : State) : State :=
  match lookupRow s.cfg s.cmdCh o false with
  | none => finishRequest .unsupportedOperation { s with leg := lg, op := o }
  | some w =>
    match encodeRow (rowOf w) with
    | none => finishRequest .rowTooLong { s with leg := lg, op := o }
    | some code =>
      issueSend (payload code) onOffRepeat onOffDelay .onOffTx { s with leg := lg, op := o, code0 := code }

/-- `StartDim(o, n)` (43_sequencer.md, section 5; the first part of R91): both lookups before both encodes, and all of
them before the first send. -/
def startDim (o : Operation) (n : Nat) (s : State) : State :=
  match lookupRow s.cfg s.cmdCh o false, lookupRow s.cfg s.cmdCh o true with
  | some w0, some w1 =>
    match encodeRow (rowOf w0), encodeRow (rowOf w1) with
    | some c0, some c1 =>
      issueSend (payload c0) dimRepeat dimDelay .dimTx0
        { s with leg := .brightness, op := o, code0 := c0, code1 := c1, stepsLeft := BitVec.ofNat 7 n }
    | _, _ => finishRequest .rowTooLong { s with leg := .brightness, op := o }
  | _, _ => finishRequest .unsupportedOperation { s with leg := .brightness, op := o }

/-- `delta = db − LS[ch].brightness`, a signed integer (42_controller.md R83, R88). -/
def dimDelta (db b : Brightness) : Int := (db.toNat : Int) - (b.toNat : Int)

/-- `PlanBrightness()`: the brightness leg, or the end of the request (43_sequencer.md, section 5; 42_controller.md
R77, lines 8 to 20, and R81 to R85). -/
def planBrightness (s : State) : State :=
  if s.cmdSb = true ∧ s.cmdDb ≠ (s.light s.cmdCh).brightness then
    if s.cmdDb.toNat ≤ 1 then
      if s.light s.cmdCh ≠ { power := .off, brightness := 0 } then startOnOff .brightness .off s
      else finishRequest .ok s
    else
      startDim (if 0 < dimDelta s.cmdDb (s.light s.cmdCh).brightness then .dimUp else .dimDown)
        (dimDelta s.cmdDb (s.light s.cmdCh).brightness).natAbs s
  else finishRequest .ok s

/-- The `EXEC` step of a request whose fields are latched: the entry checks, then the power leg or the brightness leg
(43_sequencer.md R99, 42_controller.md R79, R80). -/
def beginRequest (s : State) : State :=
  if s.cfg.numLights ≤ s.cmdCh.toNat then finishRequest .invalidChannel s
  else if s.cmdSb = true ∧ dimLevels < s.cmdDb.toNat then finishRequest .brightnessOutOfRange s
  else if s.cmdDp ≠ (s.light s.cmdCh).power then startOnOff .power (powerOperation s.cmdDp) s
  else planBrightness s

/-- Latching the fields of an executing request (43_sequencer.md R99). -/
def latchRequest (ch : Channel) (dp : Power) (sb : Bool) (db : Brightness) (s : State) : State :=
  { s with cmdCh := ch, cmdDp := dp, cmdSb := sb, cmdDb := db }

/-- `REQUEST_STATE` (42_controller.md R77, 43_sequencer.md R99): its `EXEC` step. -/
def execRequestState (ch : Channel) (dp : Power) (sb : Bool) (db : Brightness) (s : State) :
    Host.Outcome State Fault Refusal :=
  .next (beginRequest (latchRequest ch dp sb db s))

end Sys2Proof.Machine
end

