-- ==== Sys2Proof/Machine/Dispatch.lean ====
section
/-! DEFINITION. One arm a command (43_sequencer.md R99). -/

namespace Sys2Proof.Machine

def exec (i : Instr) (s : State) : Host.Outcome State Fault Refusal :=
  match i with
  | .requestState ch dp sb db => Sys2Proof.Machine.execRequestState ch dp sb db s
  | .lookup ch op sub => Sys2Proof.Machine.execLookup ch op sub s
  | .encode ch op sub => Sys2Proof.Machine.execEncode ch op sub s

end Sys2Proof.Machine
end

