-- ==== Sys2Proof/Machine/HostPort.lean ====
section
/-! DEFINITION. The host register window (10_state.md R19 to R26, 44_host_registers.md R104 to R109). -/

namespace Sys2Proof.Machine

/-- `PARAM`: bits 8:0 `NUM_LIGHTS`, bits 22:16 `DIM_LEVELS`, the rest 0 (10_state.md R25; notes/assumptions/8.md). -/
def paramWord (c : Config) : Word := 0#9 ++ BitVec.ofNat 7 dimLevels ++ 0#7 ++ BitVec.ofNat 9 c.numLights

/-- `RegRead(k)` (44_host_registers.md R107). -/
def regRead (k : WordIndex) (s : State) : Word :=
  if k = 0 then s.cmd
  else if k = 1 then statusWord s.busy s.status
  else if k = 2 then s.result0
  else if k = 3 then s.qsel.setWidth 32
  else if k = 4 then s.snapshot s.qsel
  else if k = 5 then paramWord s.cfg
  else 0

/-- A `CMD` write: accepted while idle, else refused with `OVERRUN` (44_host_registers.md R104, R105). -/
def writeCmd (v : Word) (s : State) : State :=
  if s.phase = .idle then accept v s else { s with status := s.status.overrunSet }

/-- `RegWrite(k, v)` (44_host_registers.md R104, R105, R108, R109). -/
def regWrite (k : WordIndex) (v : Word) (s : State) : State :=
  if k = 0 then writeCmd v s
  else if k = 3 then { s with qsel := v.setWidth 8 }
  else s

/-- A host read: no side effect on the block (20_memory.md R42); the value stands on the host port's data word
(20_memory.md R40; notes/assumptions/5.md). -/
def hostRead (k : WordIndex) (s : State) : State := { s with readData := some (regRead k s) }

/-- An access through a byte-addressed bridge: a whole aligned word of the window becomes the host access of that
word, and any other is refused (20_memory.md R40). -/
def busAccess (addr size : Nat) (access : WordIndex → State → State) (s : State) :
    Host.Outcome State Fault Refusal :=
  match busWord addr size with
  | .ok k => .next (access k s)
  | .error r => .refused r

end Sys2Proof.Machine
end

