-- ==== Sys2Proof/Machine/Sequencer.lean ====
section
/-! DEFINITION. The sequencer's steps after a wait: the ports' responses and the expiry of the dim-step delay
(43_sequencer.md R94 to R102). -/

namespace Sys2Proof.Machine

/-- The brightness a power leg commits: full for On, 0 for Off (42_controller.md R80). -/
def powerLegBrightness : Power → Brightness
  | .on => BitVec.ofNat 7 dimLevels
  | .off => 0

/-- The entry an On/Off sequence's commit writes: the power leg's, or `(Off, 0)` for a low-brightness request
(43_sequencer.md R100). -/
def onOffCommitted (s : State) : LightState :=
  match s.leg with
  | .power => { power := s.cmdDp, brightness := powerLegBrightness s.cmdDp }
  | .brightness => { power := .off, brightness := 0 }

/-- The `ONOFF_TX` response step (43_sequencer.md R100). -/
def onOffResponse (resp : TxResponse) (s : State) : State :=
  match resp with
  | .transmitError => finishRequest .transmitError { s with txOut := none }
  | .ok => commitAndPublish (onOffCommitted s) s.leg { s with txOut := none }

/-- The `DIM_TX0` response step (43_sequencer.md R101). -/
def dimTx0Response (resp : TxResponse) (s : State) : State :=
  match resp with
  | .transmitError => finishRequest .transmitError { s with txOut := none }
  | .ok => issueSend (payload s.code1) dimRepeat dimDelay .dimTx1 s

/-- The `DIM_TX1` response step (43_sequencer.md R101). -/
def dimTx1Response (resp : TxResponse) (s : State) : State :=
  match resp with
  | .transmitError => finishRequest .transmitError { s with txOut := none }
  | .ok => { s with txOut := none, stepsLeft := s.stepsLeft - 1, delayRun := true, phase := .dimDelay }

/-- The expiry of the dim-step delay: the next step's first send, or the dim leg's commit (43_sequencer.md R101). -/
def dimDelayExpiry (s : State) : State :=
  if 0 < s.stepsLeft.toNat then
    issueSend (payload s.code0) dimRepeat dimDelay .dimTx0 { s with delayRun := false }
  else
    commitAndPublish { power := (s.light s.cmdCh).power, brightness := s.cmdDb } .brightness
      { s with delayRun := false }

/-- The `PUB` response step: a `PublishError` is recorded and the request goes on (43_sequencer.md R102). -/
def pubResponse (resp : PubResponse) (s : State) : State :=
  match s.leg with
  | .power => planBrightness { s with pubOut := none, status := s.status.published resp }
  | .brightness => finishRequest .ok { s with pubOut := none, status := s.status.published resp }

/-- The transmission port delivers a response. Its step is enabled only while a request is outstanding, in the phase
that waits for it; a response that finds no such step is discarded (60_exceptions.md R118, 70_reset_and_hazards.md
R125; notes/assumptions/2.md). -/
def txPortStep (resp : TxResponse) (s : State) : State :=
  match s.txOut, s.phase with
  | some _, .onOffTx => onOffResponse resp s
  | some _, .dimTx0 => dimTx0Response resp s
  | some _, .dimTx1 => dimTx1Response resp s
  | _, _ => s

/-- The state-change sink delivers a response, enabled as above (60_exceptions.md R118, 43_sequencer.md R102). -/
def sinkStep (resp : PubResponse) (s : State) : State :=
  match s.pubOut, s.phase with
  | some _, .pub => pubResponse resp s
  | _, _ => s

end Sys2Proof.Machine
end

