-- ==== Sys2Proof/Machine/Agents.lean ====
section
/-! DEFINITION. The steps of the five agents (60_exceptions.md R118) and the choice among them (R119). -/

namespace Sys2Proof.Machine

/-- The sequencer's own step: `EXEC` decodes `CMD` and runs it (43_sequencer.md R99), `DIM_DELAY` expires (R101). In
every other phase it has no enabled step and nothing changes (notes/assumptions/2.md). -/
def sequencerStep (s : State) : Host.Outcome State Fault Refusal :=
  match s.phase with
  | .exec =>
    match decode s.cmd with
    | .ok i => exec i s
    | .error _ => .next (illegalCommand s)
  | .dimDelay => .next (dimDelayExpiry s)
  | _ => .next s

/-- One atomic step of one agent (60_exceptions.md R118). -/
def perform (e : Event) (s : State) : Host.Outcome State Fault Refusal :=
  match e with
  | .hostWrite k v => .next (regWrite k v s)
  | .hostRead k => .next (hostRead k s)
  | .busWrite addr size v => busAccess addr size (fun k => regWrite k v) s
  | .busRead addr size => busAccess addr size hostRead s
  | .sequencer => sequencerStep s
  | .txPort resp => .next (txPortStep resp s)
  | .sink resp => .next (sinkStep resp s)
  | .reset => .next (resetStep s)

/-- Which agent steps next: the head of the state's schedule, or a free value when it is empty
(60_exceptions.md R119; notes/assumptions/1.md). -/
def State.nextEvent (s : State) : Event :=
  match s.schedule with
  | e :: _ => e
  | [] => Config.freeEvent s.drawn

/-- The state with that choice taken. -/
def State.takeEvent (s : State) : State :=
  match s.schedule with
  | _ :: rest => { s with schedule := rest }
  | [] => { s with drawn := s.drawn + 1 }

/-- The command word `w` accepted, and the sequencer scheduled to execute it next (44_host_registers.md R104,
43_sequencer.md R99; notes/assumptions/9.md). -/
def State.placeCommand (s : State) (w : Word) : State :=
  accept w { s with schedule := .sequencer :: s.schedule }

end Sys2Proof.Machine
end

