-- ==== Sys2Proof/Machine/Step.lean ====
section
/-! DEFINITION. One step of the machine: the next agent of the schedule takes its step (60_exceptions.md R118, R119). -/

namespace Sys2Proof.Machine

def step (s : State) : Host.Outcome State Fault Refusal := perform s.nextEvent s.takeEvent

/-- `s` with the command word whose table bits are `w` accepted and about to be executed: a command is one 32-bit
word, so bits above `nbits` are 0 (30_encoding.md R58; notes/assumptions/9.md). -/
def State.withFetchWord (s : State) (nbits w : Nat) : State := s.placeCommand (BitVec.ofNat 32 (w % 2 ^ nbits))

end Sys2Proof.Machine
end

