-- ==== Sys2Proof/Machine/Assembler.lean ====
section
/-! DEFINITION. The assembler lines of 30_encoding.md R59, each as the host accesses it expands to. The `ROW` and
`EMPTY` directives are `rowWord` and `emptyRowWord` of Decode.lean. -/

namespace Sys2Proof.Machine

/-- A line of a host program (30_encoding.md R59). -/
inductive HostLine where
  /-- `REQ ch, ON` or `REQ ch, OFF`. -/
  | req (ch : Channel) (dp : Power)
  /-- `REQ ch, ON, b` or `REQ ch, OFF, b`. -/
  | reqBrightness (ch : Channel) (dp : Power) (b : Brightness)
  /-- `LOOKUP ch, op, sub`. -/
  | lookup (ch : Channel) (op : Operation) (sub : Bool)
  /-- `ENCODE ch, op, sub`. -/
  | encode (ch : Channel) (op : Operation) (sub : Bool)
  /-- `WR reg, v`. -/
  | wr (k : WordIndex) (v : Word)
  /-- `RD reg`. -/
  | rd (k : WordIndex)
  /-- `POLL` that read `STATUS` `more + 1` times: one or more reads. -/
  | poll (more : Nat)
  deriving DecidableEq, Repr

/-- The host accesses a line expands to (30_encoding.md R59). -/
def expandLine : HostLine → List Event
  | .req ch dp =>
    [.hostWrite 0 (0x1000_0000 ||| ch.setWidth 32 <<< 16 ||| dp.bit.setWidth 32 <<< 15)]
  | .reqBrightness ch dp b =>
    [.hostWrite 0
      (0x1000_0000 ||| ch.setWidth 32 <<< 16 ||| dp.bit.setWidth 32 <<< 15 ||| 1#32 <<< 14 ||| b.setWidth 32)]
  | .lookup ch op sub =>
    [.hostWrite 0
      (0x2000_0000 ||| ch.setWidth 32 <<< 16 ||| op.code.setWidth 32 <<< 12 ||| (boolBit sub).setWidth 32 <<< 8)]
  | .encode ch op sub =>
    [.hostWrite 0
      (0x3000_0000 ||| ch.setWidth 32 <<< 16 ||| op.code.setWidth 32 <<< 12 ||| (boolBit sub).setWidth 32 <<< 8)]
  | .wr k v => [.hostWrite k v]
  | .rd k => [.hostRead k]
  | .poll more => List.replicate (more + 1) (.hostRead 1)

end Sys2Proof.Machine
end

