-- ==== Sys2Proof/Safety.lean ====
section
/-! DEFINITION. The invariant of the machine, part by part, in the terms claims use. Each part is decidable. -/

namespace Sys2Proof.Safety

open Sys2Proof.Machine

/-- The state is one of a block that can be built, with one light state a channel (10_state.md R15, 30_encoding.md
R51). -/
abbrev Sized (s : State) : Prop := s.cfg.wf = true ∧ s.ls.length = s.cfg.numLights

/-- The values an entry of `LS` can reach: `(Off, 0)`, and either power with a brightness of 2 to 64 (10_state.md
R18). -/
abbrev Reachable (l : LightState) : Prop :=
  l = LightState.initial ∨ (2 ≤ l.brightness.toNat ∧ l.brightness.toNat ≤ 64)

/-- Every entry of `LS` has a reachable value (10_state.md R18). -/
abbrev LightsReachable (s : State) : Prop := ∀ l ∈ s.ls, Reachable l

/-- A phase that waits for the transmission port (10_state.md R28). -/
abbrev Sending (s : State) : Prop := s.phase = .onOffTx ∨ s.phase = .dimTx0 ∨ s.phase = .dimTx1

/-- A phase of a dim sequence (10_state.md R28). -/
abbrev Dimming (s : State) : Prop := s.phase = .dimTx0 ∨ s.phase = .dimTx1 ∨ s.phase = .dimDelay

/-- A request is outstanding, or the timer runs, exactly in the phase that waits for it, so at most one port request
is outstanding across both ports (43_sequencer.md R97, R98; 10_state.md R28). -/
abbrev OneWait (s : State) : Prop :=
  (s.txOut ≠ none ↔ Sending s) ∧ (s.pubOut ≠ none ↔ s.phase = .pub) ∧ (s.delayRun = true ↔ s.phase = .dimDelay)

/-- What is outstanding is the payload of the latched code word, with the sequence's repeat, or the entry just
committed (43_sequencer.md R90, R91, R93, R95). -/
abbrev RightRequest (s : State) : Prop :=
  (s.phase = .onOffTx →
    s.txOut = some { payload := payload s.code0, repeatCount := 4, delayBetween := 0 }) ∧
  (s.phase = .dimTx0 →
    s.txOut = some { payload := payload s.code0, repeatCount := 1, delayBetween := 0 }) ∧
  (s.phase = .dimTx1 →
    s.txOut = some { payload := payload s.code1, repeatCount := 1, delayBetween := 0 }) ∧
  (s.phase = .pub →
    s.pubOut = some
      { channel := s.cmdCh, power := (s.light s.cmdCh).power, brightness := (s.light s.cmdCh).brightness })

/-- The code word of the row of (`ch`, `op`, `sub`), where the row exists and is not too long. -/
def rowCode (c : Config) (ch : Channel) (op : Operation) (sub : Bool) : Option Word :=
  (lookupRow c ch op sub).bind fun w => encodeRow (rowOf w)

/-- The code words being sent are what the encoder gives for the rows of the sequence's operation (43_sequencer.md
R90, R91; 41_encoder.md R71). -/
abbrev RightCodes (s : State) : Prop :=
  (s.phase = .onOffTx → rowCode s.cfg s.cmdCh s.op false = some s.code0) ∧
  (Dimming s → rowCode s.cfg s.cmdCh s.op false = some s.code0 ∧ rowCode s.cfg s.cmdCh s.op true = some s.code1)

/-- A request that waits passed its entry checks (42_controller.md R79), and its latched fields fit the sequence in
progress (42_controller.md R80, R83, R85). -/
abbrev RightRequestFields (s : State) : Prop :=
  (s.phase ≠ .idle → s.phase ≠ .exec →
    s.cmdCh.toNat < s.cfg.numLights ∧ (s.cmdSb = true → s.cmdDb.toNat ≤ 64)) ∧
  (s.phase = .onOffTx → s.leg = .power → s.op = powerOperation s.cmdDp) ∧
  (s.phase = .onOffTx → s.leg = .brightness → s.op = .off ∧ s.cmdSb = true ∧ s.cmdDb.toNat ≤ 1) ∧
  (Dimming s → s.leg = .brightness ∧ (s.op = .dimUp ∨ s.op = .dimDown) ∧ s.cmdSb = true ∧
    2 ≤ s.cmdDb.toNat ∧ s.cmdDb.toNat ≤ 64)

/-- `steps_left` is 1 to 64 while a pair is being sent and 0 to 63 in the delay after it (10_state.md R27). -/
abbrev RightSteps (s : State) : Prop :=
  (s.phase = .dimTx0 ∨ s.phase = .dimTx1 → 1 ≤ s.stepsLeft.toNat ∧ s.stepsLeft.toNat ≤ 64) ∧
  (s.phase = .dimDelay → s.stepsLeft.toNat ≤ 63)

/-- `DONE`, `ERR` and `RESULT0` read 0 while busy, and `ERR` is set only with `DONE` (10_state.md R21, R22;
44_host_registers.md R107). -/
abbrev ResultsHeld (s : State) : Prop :=
  (s.phase ≠ .idle → s.status.done = false ∧ s.result0 = 0) ∧ (s.status.done = false → s.status.err = .ok)

/-- `PLEG`, `BLEG` and `PUBERR` show what the executing request has done so far (10_state.md R21). -/
abbrev LegsShown (s : State) : Prop :=
  (s.phase = .exec → s.status.pLeg = false ∧ s.status.bLeg = false ∧ s.status.pubErr = false) ∧
  (s.phase = .onOffTx → s.leg = .power → s.status.pLeg = false ∧ s.status.pubErr = false) ∧
  (Sending s ∨ s.phase = .dimDelay → s.status.bLeg = false) ∧
  (s.phase = .pub → s.leg = .power → s.status.pLeg = true ∧ s.status.bLeg = false ∧ s.status.pubErr = false) ∧
  (s.phase = .pub → s.leg = .brightness → s.status.bLeg = true)

/-- The invariant: every part above. -/
abbrev Inv (s : State) : Prop :=
  Sized s ∧ LightsReachable s ∧ OneWait s ∧ RightRequest s ∧ RightCodes s ∧ RightRequestFields s ∧ RightSteps s ∧
    ResultsHeld s ∧ LegsShown s

/-- The state in which a request that ends in its `EXEC` step leaves the block: the fields latched, the code `e`, the
result `r`, nothing outstanding, and everything else as it was (60_exceptions.md R111). -/
abbrev requestEnded (s : State) (ch : Channel) (dp : Power) (sb : Bool) (db : Brightness)
    (e : ErrorCode) (r : Word) : State :=
  { s with
    cmdCh := ch
    cmdDp := dp
    cmdSb := sb
    cmdDb := db
    result0 := r
    status := { s.status with done := true, err := e }
    txOut := none
    pubOut := none
    delayRun := false
    phase := .idle }

end Sys2Proof.Safety
end

