-- ==== Sys2Proof/Safety/RequestProcedure.lean ====
section
/-! DEFINITION. The whole of `REQUEST_STATE` as the pseudocode of 42_controller.md R77 gives it, in one go, and the
phase machine driven by the same answers. 43_sequencer.md R103 says that the two agree; a statement compares them. -/

namespace Sys2Proof.Safety

open Sys2Proof.Machine

/-- What a request waits for: an `await` of 00_scope.md R11. -/
inductive Wait where
  | send (r : TxRequest)
  | delay
  | publish (u : StateUpdate)
  deriving DecidableEq, Repr

abbrev Wait.isSend : Wait → Bool
  | .send _ => true
  | _ => false

abbrev Wait.isDelay : Wait → Bool
  | .delay => true
  | _ => false

abbrev Wait.isPublish : Wait → Bool
  | .publish _ => true
  | _ => false

/-- What a request has done so far: the light states, the waits it has gone through in order, and the bits it set. -/
structure Run where
  ls : List LightState
  waits : List Wait
  pLeg : Bool
  bLeg : Bool
  pubErr : Bool
  deriving DecidableEq, Repr

def Run.light (r : Run) (ch : Channel) : LightState := r.ls.getD ch.toNat LightState.initial

/-- A wait: recorded, and answered by the environment's answer to the wait of that number (true for `OK`; the end of a
delay has no other answer). -/
def await (answers : Nat → Bool) (w : Wait) (r : Run) : Run × Bool :=
  ({ r with waits := r.waits ++ [w] }, answers r.waits.length)

/-- `await send(Payload(code), repeat, 0)`. -/
def sendCode (answers : Nat → Bool) (code : Word) (count : Nat) (r : Run) : Run × Bool :=
  await answers (.send { payload := payload code, repeatCount := count, delayBetween := 0 }) r

/-- `await publish(ch, LS[ch])`: a `PublishError` is recorded and the request continues (42_controller.md R86). -/
def publishLight (answers : Nat → Bool) (ch : Channel) (r : Run) : Run :=
  let a := await answers
    (.publish { channel := ch, power := (r.light ch).power, brightness := (r.light ch).brightness }) r
  { a.1 with pubErr := a.1.pubErr || !a.2 }

/-- `OnOffSequence(ch, op)`: the error it finishes with, if any (43_sequencer.md R90). -/
def onOffSequence (c : Config) (answers : Nat → Bool) (ch : Channel) (op : Operation) (r : Run) :
    Run × Option ErrorCode :=
  match lookupRow c ch op false with
  | none => (r, some .unsupportedOperation)
  | some w =>
    match encodeRow (rowOf w) with
    | none => (r, some .rowTooLong)
    | some code =>
      let a := sendCode answers code 4 r
      (a.1, if a.2 then none else some .transmitError)

/-- The loop of `DimSequence`: `n` times two sends and a delay (43_sequencer.md R91). -/
def dimLoop (answers : Nat → Bool) (code0 code1 : Word) : Nat → Run → Run × Option ErrorCode
  | 0, r => (r, none)
  | n + 1, r =>
    let a := sendCode answers code0 1 r
    if a.2 then
      let b := sendCode answers code1 1 a.1
      if b.2 then dimLoop answers code0 code1 n (await answers .delay b.1).1
      else (b.1, some .transmitError)
    else (a.1, some .transmitError)

/-- `DimSequence(ch, op, n)` (43_sequencer.md R91). -/
def dimSequence (c : Config) (answers : Nat → Bool) (ch : Channel) (op : Operation) (n : Nat) (r : Run) :
    Run × Option ErrorCode :=
  match lookupRow c ch op false with
  | none => (r, some .unsupportedOperation)
  | some w0 =>
    match lookupRow c ch op true with
    | none => (r, some .unsupportedOperation)
    | some w1 =>
      match encodeRow (rowOf w0) with
      | none => (r, some .rowTooLong)
      | some code0 =>
        match encodeRow (rowOf w1) with
        | none => (r, some .rowTooLong)
        | some code1 => dimLoop answers code0 code1 n r

/-- The power leg, lines 3 to 7 of 42_controller.md R77. -/
def powerLeg (c : Config) (answers : Nat → Bool) (ch : Channel) (dp : Power) (r : Run) : Run × Option ErrorCode :=
  if dp ≠ (r.light ch).power then
    match onOffSequence c answers ch (if dp = .on then .on else .off) r with
    | (r', some e) => (r', some e)
    | (r', none) =>
      (publishLight answers ch
        { r' with
          ls := r'.ls.set ch.toNat { power := dp, brightness := if dp = .on then 64 else 0 }
          pLeg := true }, none)
  else (r, none)

/-- The brightness leg, lines 8 to 19 of 42_controller.md R77. -/
def brightnessLeg (c : Config) (answers : Nat → Bool) (ch : Channel) (sb : Bool) (db : Brightness) (r : Run) :
    Run × Option ErrorCode :=
  if sb = true ∧ db ≠ (r.light ch).brightness then
    if db.toNat ≤ 1 then
      if r.light ch ≠ { power := .off, brightness := 0 } then
        match onOffSequence c answers ch .off r with
        | (r', some e) => (r', some e)
        | (r', none) =>
          (publishLight answers ch
            { r' with ls := r'.ls.set ch.toNat { power := .off, brightness := 0 }, bLeg := true }, none)
      else (r, none)
    else
      let delta : Int := (db.toNat : Int) - ((r.light ch).brightness.toNat : Int)
      match dimSequence c answers ch (if delta > 0 then .dimUp else .dimDown) delta.natAbs r with
      | (r', some e) => (r', some e)
      | (r', none) =>
        (publishLight answers ch
          { r' with
            ls := r'.ls.set ch.toNat { power := (r'.light ch).power, brightness := db }
            bLeg := true }, none)
  else (r, none)

/-- `REQUEST_STATE ch, dp, sb, db` from the run `r`, with the code it finishes with (42_controller.md R77). -/
def requestProcedure (c : Config) (answers : Nat → Bool) (ch : Channel) (dp : Power) (sb : Bool) (db : Brightness)
    (r : Run) : Run × ErrorCode :=
  if c.numLights ≤ ch.toNat then (r, .invalidChannel)
  else if sb = true ∧ 64 < db.toNat then (r, .brightnessOutOfRange)
  else
    match powerLeg c answers ch dp r with
    | (r', some e) => (r', e)
    | (r', none) =>
      match brightnessLeg c answers ch sb db r' with
      | (r'', some e) => (r'', e)
      | (r'', none) => (r'', .ok)

/-! ## The phase machine under the same answers -/

/-- What the block is waiting for: the outstanding request, or the running delay. -/
def outstanding (s : State) : List Wait :=
  (s.txOut.map Wait.send).toList ++ (s.pubOut.map Wait.publish).toList ++ if s.delayRun then [.delay] else []

/-- The one step that can move a busy sequencer on, with the answer given (43_sequencer.md R103). -/
def movingEvent (answer : Bool) (s : State) : Event :=
  match s.phase with
  | .onOffTx | .dimTx0 | .dimTx1 => .txPort (if answer then .ok else .transmitError)
  | .pub => .sink (if answer then .ok else .publishError)
  | _ => .sequencer

/-- Up to `n` steps of the machine, each the one that moves the sequencer on, until it is idle, with the waits it went
through. The answer to the wait of each number is the environment's. -/
def drive (answers : Nat → Bool) : Nat → State → List Wait → State × List Wait
  | 0, s, ws => (s, ws)
  | n + 1, s, ws =>
    if s.phase = .idle then (s, ws)
    else
      match step { s with schedule := movingEvent (answers ws.length) s :: s.schedule } with
      | .next t => drive answers n t (ws ++ outstanding s)
      | _ => (s, ws)

/-- The run a state's request starts from. -/
def runOf (s : State) : Run :=
  { ls := s.ls, waits := [], pLeg := s.status.pLeg, bLeg := s.status.bLeg, pubErr := s.status.pubErr }

/-- The state a driven request must end in, given what the procedure says: the run's light states and bits, the
code, the snapshot, and every register that is not the sequencer's own as it was. -/
abbrev EndsAs (s t : State) (ch : Channel) (r : Run) (e : ErrorCode) : Prop :=
  t.phase = .idle ∧ t.ls = r.ls ∧
    t.status =
      { done := true, err := e, pubErr := r.pubErr, overrun := s.status.overrun, pLeg := r.pLeg, bLeg := r.bLeg } ∧
    t.result0 = (if ch.toNat < s.cfg.numLights then lightWord (r.light ch) else 0) ∧
    t.txOut = none ∧ t.pubOut = none ∧ t.delayRun = false ∧
    t.cfg = s.cfg ∧ t.cmd = s.cmd ∧ t.qsel = s.qsel

end Sys2Proof.Safety
end

