-- ==== Sys2Proof/Certificates/Slice0/Obligations.lean ====
section
/-! DEFINITION. The statements about the model, each from numbered rules of spec/ (OBLIGATIONS.json lists them). A
statement about a step says which agent the schedule names next (`nextEvent`) and speaks of the state with that choice
taken (`takeEvent`, which changes the schedule alone). -/

open Sys2Proof Sys2Proof.Machine Sys2Proof.Safety

/-! ## Encodings -/

/-- 30_encoding.md R53, R54, R55: a command's word decodes to that command, with every operand at every value. -/
def Obligations.DecodeOfEncodeIsIdentity : Prop := ∀ i : Instr, decode (encode i) = .ok i

/-- 30_encoding.md R53, R54, R55: a legal word is the encoding of the one command it decodes to, so no two words mean
the same command and no bit of a word is dropped. -/
def Obligations.EncodeOfDecodedWordIsTheWord : Prop := ∀ (w : Word) (i : Instr), decode w = .ok i → encode i = w

/-- 30_encoding.md R55: a word is a command exactly when its opcode is 1, 2 or 3 and every bit of that opcode's
reserved-bit mask is 0, and the opcode alone says which command. -/
def Obligations.DecodeAcceptsExactlyLegalWords : Prop :=
  ∀ w : Word,
    ((∃ ch dp sb db, decode w = .ok (.requestState ch dp sb db)) ↔
      w.toNat / 2 ^ 28 = 1 ∧ w &&& 0x0F00_3F80 = 0) ∧
    ((∃ ch op sub, decode w = .ok (.lookup ch op sub)) ↔ w.toNat / 2 ^ 28 = 2 ∧ w &&& 0x0F00_CEFF = 0) ∧
    ((∃ ch op sub, decode w = .ok (.encode ch op sub)) ↔ w.toNat / 2 ^ 28 = 3 ∧ w &&& 0x0F00_CEFF = 0)

/-- 30_encoding.md R53, R54, R56 (and the codes of R50): the operands of a decoded word are its fields, unsigned. -/
def Obligations.DecodedOperandsAreTheFields : Prop :=
  (∀ (w : Word) (ch : Channel) (dp : Power) (sb : Bool) (db : Brightness),
    decode w = .ok (.requestState ch dp sb db) →
      ch.toNat = w.toNat / 2 ^ 16 % 256 ∧ (dp = .on ↔ w.toNat / 2 ^ 15 % 2 = 1) ∧
      (sb = true ↔ w.toNat / 2 ^ 14 % 2 = 1) ∧ db.toNat = w.toNat % 128) ∧
  (∀ (w : Word) (ch : Channel) (op : Operation) (sub : Bool),
    (decode w = .ok (.lookup ch op sub) ∨ decode w = .ok (.encode ch op sub)) →
      ch.toNat = w.toNat / 2 ^ 16 % 256 ∧ op.code.toNat = w.toNat / 2 ^ 12 % 4 ∧
      (sub = true ↔ w.toNat / 2 ^ 8 % 2 = 1))

/-- 30_encoding.md R60: the example command words. A sanity statement. -/
def Obligations.ExampleWordsDecode : Prop :=
  decode 0x1000_8000 = .ok (.requestState 0 .on false 0) ∧
  decode 0x1000_0000 = .ok (.requestState 0 .off false 0) ∧
  decode 0x1000_C020 = .ok (.requestState 0 .on true 32) ∧
  decode 0x1000_C046 = .ok (.requestState 0 .on true 70) ∧
  decode 0x1002_4028 = .ok (.requestState 2 .off true 40) ∧
  decode 0x2000_0000 = .ok (.lookup 0 .on false) ∧
  decode 0x2000_2100 = .ok (.lookup 0 .dimUp true) ∧
  decode 0x3000_0000 = .ok (.encode 0 .on false) ∧
  decode 0x3001_3000 = .ok (.encode 1 .dimDown false)

/-- 30_encoding.md R59: each command line of the assembler is one host write of the encoded command to `CMD`, `WR` and
`RD` are the access they name, and `POLL` is one or more reads of `STATUS`. -/
def Obligations.AssemblerLinesWriteEncodedCommands : Prop :=
  (∀ (ch : Channel) (dp : Power), expandLine (.req ch dp) = [.hostWrite 0 (encode (.requestState ch dp false 0))]) ∧
  (∀ (ch : Channel) (dp : Power) (b : Brightness),
    expandLine (.reqBrightness ch dp b) = [.hostWrite 0 (encode (.requestState ch dp true b))]) ∧
  (∀ (ch : Channel) (op : Operation) (sub : Bool),
    expandLine (.lookup ch op sub) = [.hostWrite 0 (encode (.lookup ch op sub))] ∧
      expandLine (.encode ch op sub) = [.hostWrite 0 (encode (.encode ch op sub))]) ∧
  (∀ (k : WordIndex) (v : Word), expandLine (.wr k v) = [.hostWrite k v] ∧ expandLine (.rd k) = [.hostRead k]) ∧
  ∀ more : Nat, expandLine (.poll more) ≠ [] ∧ ∀ e ∈ expandLine (.poll more), e = .hostRead 1

/-- 30_encoding.md R49, R51, R59: the `ROW` directive's word is well-formed, and its row is the counts given. -/
def Obligations.RowDirectiveReadsBack : Prop :=
  ∀ row : List PulseCount, 1 ≤ row.length → row.length ≤ 7 → (∀ c ∈ row, c ≠ 0) →
    rowWordWf (rowWord row) = true ∧ rowValid (rowWord row) = true ∧ rowOf (rowWord row) = row

/-- 30_encoding.md R49, R51, 40_pulse_table.md R63: the row of a word is its first `w[30:28]` counts, count `k` being
`w[27−4k : 24−4k]`; and a well-formed word that is not empty is the `ROW` word of its own row, so a well-formed word
holds nothing but its row. -/
def Obligations.WellFormedRowWordIsItsRow : Prop :=
  ∀ w : Word,
    (rowOf w).length = w.toNat / 2 ^ 28 % 8 ∧
    (∀ (k : Nat) (h : k < (rowOf w).length), (rowOf w)[k].toNat = w.toNat / 2 ^ (24 - 4 * k) % 16) ∧
    (rowWordWf w = true → w ≠ 0 →
      rowWord (rowOf w) = w ∧ 1 ≤ (rowOf w).length ∧ (rowOf w).length ≤ 7 ∧ ∀ c ∈ rowOf w, c ≠ 0)

/-- 30_encoding.md R51 (with the ranges of 00_scope.md R7): the block is constructed from exactly the well-formed
images and refused every other. -/
def Obligations.ConstructionNeedsWellFormedImage : Prop :=
  ∀ c : Config, c.numLights ≤ 256 → 0 < c.dimStepDelay →
    let wellFormed :=
      c.pulseTable.length = 6 * c.numLights ∧
        ∀ w ∈ c.pulseTable, w = 0 ∨
          (w.getLsbD 31 = true ∧ 1 ≤ (w.extractLsb' 28 3).toNat ∧
            ∀ k < 7,
              (k < (w.extractLsb' 28 3).toNat → 1 ≤ (w.extractLsb' (24 - 4 * k) 4).toNat) ∧
              ((w.extractLsb' 28 3).toNat ≤ k → w.extractLsb' (24 - 4 * k) 4 = 0))
    (wellFormed → State.construct c = .next (State.powerOn c)) ∧
    (¬ wellFormed → State.construct c = .refused .illFormedImage)

/-! ## The pulse-table ROM and its indexer -/

/-- 40_pulse_table.md R61, R62, 20_memory.md R36: the indexer hits exactly the six slots of a valid channel that hold
a row, and answers `PULSE_TABLE[6·ch + s]`; `RomRead(i)` is `PULSE_TABLE[i]`; no two triples share an index. -/
def Obligations.LookupHitsExactlyConfiguredSlots : Prop :=
  let slots : List (Operation × Bool × Nat) :=
    [(.on, false, 0), (.off, false, 1), (.dimUp, false, 2), (.dimUp, true, 3), (.dimDown, false, 4),
      (.dimDown, true, 5)]
  (∀ (c : Config) (ch : Channel) (op : Operation) (sub : Bool) (w : Word),
    lookupRow c ch op sub = some w ↔
      ch.toNat < c.numLights ∧ w.getLsbD 31 = true ∧
        ∃ slot : Nat, (op, sub, slot) ∈ slots ∧ c.pulseTable[6 * ch.toNat + slot]? = some w) ∧
  (∀ (c : Config) (i : Nat) (w : Word), c.pulseTable[i]? = some w → romRead c i = w) ∧
  ∀ (ch ch' : Channel) (x x' : Operation × Bool × Nat), x ∈ slots → x' ∈ slots →
    6 * ch.toNat + x.2.2 = 6 * ch'.toNat + x'.2.2 → ch = ch' ∧ x = x'

/-- 40_pulse_table.md R62: different (channel, operation, sub-index) triples never read the same word, and no index
is outside the image (20_memory.md R36). -/
def Obligations.LookupNeverAliasesRows : Prop :=
  ∀ (ch ch' : Channel) (op op' : Operation) (sub sub' : Bool) (slot slot' : Nat),
    slotOf op sub = some slot → slotOf op' sub' = some slot' →
      (romIndex ch slot = romIndex ch' slot' → ch = ch' ∧ op = op' ∧ sub = sub') ∧
      ∀ n : Nat, ch.toNat < n → romIndex ch slot < 6 * n

/-! ## The encoder and the payload -/

/-- 41_encoder.md R69, R72: `RowTooLong` exactly when the consumed width exceeds 28, which is exactly when the cursor,
two positions down a pulse and one more a count, would pass below one under bit 0. -/
def Obligations.RowTooLongExactlyWhenCursorUnderflows : Prop :=
  ∀ row : List PulseCount,
    (encodeRow row = none ↔ 28 < (row.map fun c => 2 * c.toNat + 1).sum) ∧
    (encodeRow row = none ↔ (placeRow row 0x4000_0000 27).2 < -1)

/-- 41_encoder.md R69, R70: a row that is not too long has a code word, and its bits are bit 30 and, for pulse `k` of
count `i`, the bit `2k` below where the counts before it leave the cursor. -/
def Obligations.EncodedBitsAreThePulses : Prop :=
  ∀ row : List PulseCount,
    (28 < (row.map fun c => 2 * c.toNat + 1).sum → encodeRow row = none) ∧
    ((row.map fun c => 2 * c.toNat + 1).sum ≤ 28 →
      ∃ code : Word, encodeRow row = some code ∧
        ∀ p : Nat,
          code.getLsbD p = true ↔
            p = 30 ∨
              ∃ i k : Nat, ∃ h : i < row.length,
                k < row[i].toNat ∧ p + ((row.take i).map fun c => 2 * c.toNat + 1).sum + 2 * k = 27)

/-- 41_encoder.md R73: bits 31, 29, 28, 1 and 0 of a code word are 0 and bit 30 is 1, as many bits of 27:0 are set as
the row has pulses, and the lowest of them is at `30 − W`. -/
def Obligations.EncodedWordShape : Prop :=
  ∀ (row : List PulseCount) (code : Word), row ≠ [] → (∀ c ∈ row, c ≠ 0) → encodeRow row = some code →
    code.extractLsb' 28 4 = 4#4 ∧ code.extractLsb' 0 2 = 0#2 ∧
      ((List.range 28).filter fun p => code.getLsbD p).length = (row.map fun c => c.toNat).sum ∧
      code.getLsbD (30 - rowWidth row) = true ∧ ∀ p < 30 - rowWidth row, code.getLsbD p = false

/-- 41_encoder.md R73: the row can be recovered from the code word: `Encode` is injective on the rows it accepts. -/
def Obligations.EncodeIsInjective : Prop :=
  ∀ (r r' : List PulseCount) (code : Word), (∀ c ∈ r, c ≠ 0) → (∀ c ∈ r', c ≠ 0) →
    encodeRow r = some code → encodeRow r' = some code → r = r'

/-- 30_encoding.md R57, 41_encoder.md R71, 20_memory.md R37: every payload is 11 bytes, the preamble, the code word
big-endian, and a zero byte. -/
def Obligations.PayloadFormat : Prop :=
  ∀ code : Word, ∃ b6 b7 b8 b9 : Byte,
    payload code = [0x54, 0x2A, 0xAA, 0xA5, 0x55, 0x55, b6, b7, b8, b9, 0x00] ∧
      code.toNat = b6.toNat * 2 ^ 24 + b7.toNat * 2 ^ 16 + b8.toNat * 2 ^ 8 + b9.toNat

/-! ## LOOKUP and ENCODE -/

/-- 40_pulse_table.md R64: `LOOKUP` answers the row word or `ConfigurationMissing` with 0, and changes nothing that is
not named here: no light state, no other status bit, no transmission, no publish. -/
def Obligations.LookupCompletes : Prop :=
  ∀ (s : State) (ch : Channel) (op : Operation) (sub : Bool),
    exec (.lookup ch op sub) s =
      .next
        { s with
          result0 := (lookupRow s.cfg ch op sub).getD 0
          status :=
            { s.status with
              done := true
              err := if (lookupRow s.cfg ch op sub).isSome then .ok else .configurationMissing }
          txOut := none
          pubOut := none
          delayRun := false
          phase := .idle }

/-- 41_encoder.md R75: `ENCODE` answers the code word of the row it looks up; `ConfigurationMissing` on a miss comes
before `RowTooLong`, each with the result 0; nothing that is not named here changes. -/
def Obligations.EncodeCompletes : Prop :=
  ∀ (s : State) (ch : Channel) (op : Operation) (sub : Bool),
    exec (.encode ch op sub) s =
      .next
        { s with
          result0 := ((lookupRow s.cfg ch op sub).bind fun w => encodeRow (rowOf w)).getD 0
          status :=
            { s.status with
              done := true
              err :=
                if lookupRow s.cfg ch op sub = none then .configurationMissing
                else if ((lookupRow s.cfg ch op sub).bind fun w => encodeRow (rowOf w)) = none then .rowTooLong
                else .ok }
          txOut := none
          pubOut := none
          delayRun := false
          phase := .idle }

/-! ## REQUEST_STATE: the EXEC step -/

/-- 42_controller.md R79, item 1, and 60_exceptions.md R114: a channel at or above `NUM_LIGHTS` ends the request with
`InvalidChannel` whatever the brightness, with nothing sent, committed or published. -/
def Obligations.InvalidChannelEndsRequest : Prop :=
  ∀ (s : State) (ch : Channel) (dp : Power) (sb : Bool) (db : Brightness), s.cfg.numLights ≤ ch.toNat →
    exec (.requestState ch dp sb db) s = .next (requestEnded s ch dp sb db .invalidChannel 0)

/-- 42_controller.md R79, item 2: a requested brightness above 64 ends the request with `BrightnessOutOfRange`, even
when the power differs, with nothing sent, committed or published. -/
def Obligations.BrightnessOutOfRangeEndsRequest : Prop :=
  ∀ (s : State) (ch : Channel) (dp : Power) (db : Brightness), ch.toNat < s.cfg.numLights → 64 < db.toNat →
    exec (.requestState ch dp true db) s =
      .next (requestEnded s ch dp true db .brightnessOutOfRange (lightWord (s.light ch)))

/-- 42_controller.md R86, R85, R89 item 2: a request that neither leg has work for ends with `OK` in one step and
sends and publishes nothing: the power is as requested, and no brightness is requested, or the stored one is, or it
is 0 or 1 and the entry is already `(Off, 0)`. -/
def Obligations.SatisfiedRequestDoesNothing : Prop :=
  ∀ (s : State) (ch : Channel) (sb : Bool) (db : Brightness), ch.toNat < s.cfg.numLights →
    (sb = false ∨ db.toNat ≤ 64 ∧ db = (s.light ch).brightness ∨
      db.toNat ≤ 1 ∧ s.light ch = { power := .off, brightness := 0 }) →
    exec (.requestState ch (s.light ch).power sb db) s =
      .next (requestEnded s ch (s.light ch).power sb db .ok (lightWord (s.light ch)))

/-- 42_controller.md R80, 43_sequencer.md R90, R93, R99: a change of power sends the encoded On or Off row once, with
repeat 4 and no delay, and waits; no light state changes yet. -/
def Obligations.PowerChangeSendsOneBurst : Prop :=
  ∀ (s : State) (ch : Channel) (dp : Power) (sb : Bool) (db : Brightness) (code : Word),
    ch.toNat < s.cfg.numLights → (sb = true → db.toNat ≤ 64) → dp ≠ (s.light ch).power →
    rowCode s.cfg ch (if dp = .on then .on else .off) false = some code →
    exec (.requestState ch dp sb db) s =
      .next
        { s with
          cmdCh := ch
          cmdDp := dp
          cmdSb := sb
          cmdDb := db
          leg := .power
          op := if dp = .on then .on else .off
          code0 := code
          txOut := some { payload := payload code, repeatCount := 4, delayBetween := 0 }
          phase := .onOffTx }

/-- 40_pulse_table.md R66, 43_sequencer.md R90, 60_exceptions.md R114: a power change whose row is missing ends with
`UnsupportedOperation`, and one whose row is too long with `RowTooLong`, before any transmission. -/
def Obligations.PowerChangeWithoutUsableRowEnds : Prop :=
  ∀ (s : State) (ch : Channel) (dp : Power) (sb : Bool) (db : Brightness),
    ch.toNat < s.cfg.numLights → (sb = true → db.toNat ≤ 64) → dp ≠ (s.light ch).power →
    rowCode s.cfg ch (if dp = .on then .on else .off) false = none →
    exec (.requestState ch dp sb db) s =
      .next
        { requestEnded s ch dp sb db
            (if lookupRow s.cfg ch (if dp = .on then .on else .off) false = none then .unsupportedOperation
              else .rowTooLong)
            (lightWord (s.light ch)) with
          leg := .power
          op := if dp = .on then .on else .off }

/-- 42_controller.md R85: a request for brightness 0 or 1 with the power as it is takes the Off sequence, unless the
entry is already `(Off, 0)` (SatisfiedRequestDoesNothing) or already holds that brightness. -/
def Obligations.LowBrightnessTakesOffRoute : Prop :=
  ∀ (s : State) (ch : Channel) (db : Brightness) (code : Word),
    ch.toNat < s.cfg.numLights → db.toNat ≤ 1 → db ≠ (s.light ch).brightness →
    s.light ch ≠ { power := .off, brightness := 0 } → rowCode s.cfg ch .off false = some code →
    exec (.requestState ch (s.light ch).power true db) s =
      .next
        { s with
          cmdCh := ch
          cmdDp := (s.light ch).power
          cmdSb := true
          cmdDb := db
          leg := .brightness
          op := .off
          code0 := code
          txOut := some { payload := payload code, repeatCount := 4, delayBetween := 0 }
          phase := .onOffTx }

/-- 42_controller.md R85, 43_sequencer.md R90, 60_exceptions.md R114 item 5: a low-brightness request whose Off row is
missing ends with `UnsupportedOperation`, and one whose Off row is too long with `RowTooLong`, before any
transmission. -/
def Obligations.LowBrightnessWithoutUsableRowEnds : Prop :=
  ∀ (s : State) (ch : Channel) (db : Brightness),
    ch.toNat < s.cfg.numLights → db.toNat ≤ 1 → db ≠ (s.light ch).brightness →
    s.light ch ≠ { power := .off, brightness := 0 } → rowCode s.cfg ch .off false = none →
    exec (.requestState ch (s.light ch).power true db) s =
      .next
        { requestEnded s ch (s.light ch).power true db
            (if lookupRow s.cfg ch .off false = none then .unsupportedOperation else .rowTooLong)
            (lightWord (s.light ch)) with
          leg := .brightness
          op := .off }

/-- 42_controller.md R81, R83, 43_sequencer.md R91: a request for another brightness of 2 to 64, at either power,
starts a dim sequence of `|db − brightness|` steps, up or down, with the first payload's send. -/
def Obligations.DimRequestStartsSequence : Prop :=
  ∀ (s : State) (ch : Channel) (db : Brightness) (code0 code1 : Word),
    let b := (s.light ch).brightness
    let up := b.toNat < db.toNat
    ch.toNat < s.cfg.numLights → 2 ≤ db.toNat → db.toNat ≤ 64 → db ≠ b →
    rowCode s.cfg ch (if up then .dimUp else .dimDown) false = some code0 →
    rowCode s.cfg ch (if up then .dimUp else .dimDown) true = some code1 →
    exec (.requestState ch (s.light ch).power true db) s =
      .next
        { s with
          cmdCh := ch
          cmdDp := (s.light ch).power
          cmdSb := true
          cmdDb := db
          leg := .brightness
          op := if up then .dimUp else .dimDown
          code0 := code0
          code1 := code1
          stepsLeft := if up then db - b else b - db
          txOut := some { payload := payload code0, repeatCount := 1, delayBetween := 0 }
          phase := .dimTx0 }

/-- 40_pulse_table.md R66, 60_exceptions.md R114: a dim request with a row missing, of either sub-index, ends with
`UnsupportedOperation` even if the other row is too long, and one with a row too long with `RowTooLong`; neither
sends anything. -/
def Obligations.DimRequestErrorOrder : Prop :=
  ∀ (s : State) (ch : Channel) (db : Brightness),
    let b := (s.light ch).brightness
    let o := if b.toNat < db.toNat then Operation.dimUp else Operation.dimDown
    ch.toNat < s.cfg.numLights → 2 ≤ db.toNat → db.toNat ≤ 64 → db ≠ b →
    (rowCode s.cfg ch o false = none ∨ rowCode s.cfg ch o true = none) →
    exec (.requestState ch (s.light ch).power true db) s =
      .next
        { requestEnded s ch (s.light ch).power true db
            (if lookupRow s.cfg ch o false = none ∨ lookupRow s.cfg ch o true = none then .unsupportedOperation
              else .rowTooLong)
            (lightWord (s.light ch)) with
          leg := .brightness
          op := o }

/-- 10_state.md R17, R31, 60_exceptions.md R111, R115: whatever a command is, its `EXEC` step answers a next state in
which the parameters, every light state, `CMD`, `QSEL` and the status bits other than `DONE` and `ERR` are as they
were, nothing is published, and the block is idle again or waits for a send. -/
def Obligations.ExecFrame : Prop :=
  ∀ (i : Instr) (s : State), ∃ t : State, exec i s = .next t ∧
    t.cfg = s.cfg ∧ t.ls = s.ls ∧ t.cmd = s.cmd ∧ t.qsel = s.qsel ∧
    t.status = { s.status with done := t.status.done, err := t.status.err } ∧
    (t.pubOut = none ∨ t.pubOut = s.pubOut) ∧ (t.phase = .idle ∧ t.txOut = none ∨ Sending t ∧ t.txOut ≠ none) ∧
    t.readData = s.readData ∧ t.schedule = s.schedule ∧ t.drawn = s.drawn

/-! ## The steps after a wait -/

/-- 43_sequencer.md R100: the port's `OK` to an On/Off send commits the power leg's entry, or `(Off, 0)` for a
low-brightness request, sets the leg's bit and publishes what was written, in one step, and nothing else changes; its
`TransmitError` ends the request with nothing committed and the entry's snapshot as the result. -/
def Obligations.OnOffResponseCommits : Prop :=
  ∀ (s : State) (r : TxRequest), s.phase = .onOffTx → s.txOut = some r →
    (s.nextEvent = .txPort .ok →
      step s =
        .next
          (let l : LightState :=
            if s.leg = .power then { power := s.cmdDp, brightness := if s.cmdDp = .on then 64 else 0 }
            else { power := .off, brightness := 0 }
          { s.takeEvent with
            ls := s.ls.set s.cmdCh.toNat l
            status :=
              { s.status with
                pLeg := s.status.pLeg || decide (s.leg = .power)
                bLeg := s.status.bLeg || decide (s.leg = .brightness) }
            txOut := none
            pubOut := some { channel := s.cmdCh, power := l.power, brightness := l.brightness }
            phase := .pub })) ∧
    (s.nextEvent = .txPort .transmitError →
      step s =
        .next
          { s.takeEvent with
            result0 := if s.cmdCh.toNat < s.cfg.numLights then lightWord (s.light s.cmdCh) else 0
            status := { s.status with done := true, err := .transmitError }
            txOut := none
            pubOut := none
            delayRun := false
            phase := .idle })

/-- 43_sequencer.md R101: after row 0's send comes row 1's; after row 1's the step is counted and the delay starts; the
delay's expiry sends row 0 again while steps are left, and else commits the requested brightness with the power as it
is and publishes it; a `TransmitError` to either send ends the request with nothing committed. -/
def Obligations.DimStepsAdvance : Prop :=
  (∀ (s : State) (r : TxRequest), s.phase = .dimTx0 → s.txOut = some r → s.nextEvent = .txPort .ok →
    step s =
      .next
        { s.takeEvent with
          txOut := some { payload := payload s.code1, repeatCount := 1, delayBetween := 0 }
          phase := .dimTx1 }) ∧
  (∀ (s : State) (r : TxRequest), s.phase = .dimTx1 → s.txOut = some r → s.nextEvent = .txPort .ok →
    step s =
      .next { s.takeEvent with txOut := none, stepsLeft := s.stepsLeft - 1, delayRun := true, phase := .dimDelay }) ∧
  (∀ (s : State) (r : TxRequest), s.phase = .dimTx0 ∨ s.phase = .dimTx1 → s.txOut = some r →
    s.nextEvent = .txPort .transmitError →
    step s =
      .next
        { s.takeEvent with
          result0 := if s.cmdCh.toNat < s.cfg.numLights then lightWord (s.light s.cmdCh) else 0
          status := { s.status with done := true, err := .transmitError }
          txOut := none
          pubOut := none
          delayRun := false
          phase := .idle }) ∧
  (∀ s : State, s.phase = .dimDelay → s.nextEvent = .sequencer → 0 < s.stepsLeft.toNat →
    step s =
      .next
        { s.takeEvent with
          delayRun := false
          txOut := some { payload := payload s.code0, repeatCount := 1, delayBetween := 0 }
          phase := .dimTx0 }) ∧
  (∀ s : State, s.phase = .dimDelay → s.nextEvent = .sequencer → s.stepsLeft = 0 →
    step s =
      .next
        { s.takeEvent with
          ls := s.ls.set s.cmdCh.toNat { power := (s.light s.cmdCh).power, brightness := s.cmdDb }
          status := { s.status with bLeg := true }
          delayRun := false
          pubOut := some { channel := s.cmdCh, power := (s.light s.cmdCh).power, brightness := s.cmdDb }
          phase := .pub })

/-- 43_sequencer.md R96, 42_controller.md R86: a `PublishError` sets `PUBERR` and nothing else: the step it takes is
the step an `OK` takes, but for that bit. -/
def Obligations.PublishErrorSetsOnlyItsBit : Prop :=
  ∀ (s : State) (u : StateUpdate), s.phase = .pub → s.pubOut = some u →
    ∃ t : State, perform (.sink .ok) s = .next t ∧
      perform (.sink .publishError) s = .next { t with status := { t.status with pubErr := true } }

/-- 43_sequencer.md R102: a `PublishError` sets `PUBERR`, and whatever the sink answers the request goes on: after the
publish of the brightness leg, or of a power leg that leaves nothing more to do, it ends with `OK`; after the publish
of a power leg the brightness leg follows as for a request with the power as it now is. -/
def Obligations.PublishResponseContinues : Prop :=
  ∀ (s : State) (u : StateUpdate) (resp : PubResponse),
    s.phase = .pub → s.pubOut = some u → s.nextEvent = .sink resp →
    let st : Status := { s.status with pubErr := s.status.pubErr || decide (resp = .publishError) }
    (s.leg = .brightness ∨ s.cmdSb = false ∨ s.cmdDb = (s.light s.cmdCh).brightness →
      step s =
        .next
          { s.takeEvent with
            result0 := if s.cmdCh.toNat < s.cfg.numLights then lightWord (s.light s.cmdCh) else 0
            status := { st with done := true, err := .ok }
            txOut := none
            pubOut := none
            delayRun := false
            phase := .idle }) ∧
    (s.leg = .power → s.cmdCh.toNat < s.cfg.numLights → s.cmdDb.toNat ≤ 64 → s.cmdDp = (s.light s.cmdCh).power →
      step s = exec (.requestState s.cmdCh s.cmdDp s.cmdSb s.cmdDb) { s.takeEvent with pubOut := none, status := st })

/-! ## The host register window -/

/-- 10_state.md R21, 44_host_registers.md R107, 60_exceptions.md R112: the bits of `STATUS`, with `BUSY` the phase's,
`ERR` the number R112 gives the error, and the reserved bits 0. -/
def Obligations.StatusReadsItsFields : Prop :=
  ∀ s : State,
    let w := regRead 1 s
    (w.getLsbD 0 = true ↔ s.phase ≠ .idle) ∧ w.getLsbD 1 = s.status.done ∧
      (s.status.err, (w.extractLsb' 4 4).toNat) ∈
        [(ErrorCode.ok, 0), (.invalidChannel, 1), (.unsupportedOperation, 2), (.brightnessOutOfRange, 3),
          (.rowTooLong, 4), (.transmitError, 5), (.configurationMissing, 6), (.illegalCommand, 7)] ∧
      w.getLsbD 8 = s.status.pubErr ∧ w.getLsbD 9 = s.status.overrun ∧
      w.getLsbD 10 = s.status.pLeg ∧ w.getLsbD 11 = s.status.bLeg ∧ w.extractLsb' 2 2 = 0 ∧
      w.extractLsb' 12 20 = 0

/-- 10_state.md R24: `QSTATE` is the selected channel's entry with `VALID`, or 0 for a channel that does not exist. -/
def Obligations.QStateReadsTheSelectedEntry : Prop :=
  ∀ s : State,
    (s.qsel.toNat < s.cfg.numLights →
      (regRead 4 s).toNat =
        2 ^ 31 + (if (s.light s.qsel).power = .on then 2 ^ 8 else 0) + (s.light s.qsel).brightness.toNat) ∧
    (s.cfg.numLights ≤ s.qsel.toNat → regRead 4 s = 0)

/-- 10_state.md R23, R25, R26, 44_host_registers.md R107: the words a read returns whole, `PARAM = (64 << 16) |
NUM_LIGHTS`, and 0 for the reserved words. -/
def Obligations.OtherWordsRead : Prop :=
  ∀ s : State,
    regRead 0 s = s.cmd ∧ regRead 2 s = s.result0 ∧ (regRead 3 s).toNat = s.qsel.toNat ∧
      (s.cfg.numLights ≤ 256 → (regRead 5 s).toNat = 64 * 2 ^ 16 + s.cfg.numLights) ∧
      ∀ k : WordIndex, 6 ≤ k.toNat → regRead k s = 0

/-- 10_state.md R26, 20_memory.md R41, R42: a host read is one step with no side effect on the block: only the port's
data word, the model's own field, takes the value read (the model's choice, notes/assumptions/5.md). -/
def Obligations.ReadHasNoSideEffect : Prop :=
  ∀ (s : State) (k : WordIndex), s.nextEvent = .hostRead k →
    step s = .next { s.takeEvent with readData := some (regRead k s) }

/-- 44_host_registers.md R104: a `CMD` write while idle is accepted, whatever the word; `BUSY` reads 1 exactly when the
phase is not `IDLE`. -/
def Obligations.IdleCommandWriteIsAccepted : Prop :=
  (∀ (s : State) (v : Word), s.phase = .idle → s.nextEvent = .hostWrite 0 v →
    step s =
      .next
        { s.takeEvent with
          cmd := v
          status := { done := false, err := .ok, pubErr := false, overrun := false, pLeg := false, bLeg := false }
          result0 := 0
          phase := .exec }) ∧
  ∀ s : State, (regRead 1 s).getLsbD 0 = true ↔ s.phase ≠ .idle

/-- 44_host_registers.md R105: a `CMD` write while busy is refused: `OVERRUN` is set and nothing else changes. -/
def Obligations.BusyCommandWriteIsRefused : Prop :=
  ∀ (s : State) (v : Word), s.phase ≠ .idle → s.nextEvent = .hostWrite 0 v →
    step s = .next { s.takeEvent with status := { s.status with overrun := true } }

/-- 44_host_registers.md R108, R109: a `QSEL` write keeps bits 7:0 and has no other effect, and a write to any word
but `CMD` and `QSEL` has none. -/
def Obligations.OtherWritesSetOnlyQsel : Prop :=
  ∀ (s : State) (k : WordIndex) (v : Word), k ≠ 0 → s.nextEvent = .hostWrite k v →
    ∃ q : Channel, step s = .next { s.takeEvent with qsel := q } ∧
      (k = 3 → q.toNat = v.toNat % 256) ∧ (k ≠ 3 → q = s.qsel)

/-- 20_memory.md R40, R43: a bridged access of four bytes at byte address `4k` of the window is the host access of
word `k`, and a narrower, wider or misaligned one is refused (the events of a bridge are the model's form of it,
notes/assumptions/7.md). -/
def Obligations.BridgedAccessIsWordOrRefused : Prop :=
  ∀ (s : State) (addr size : Nat) (v : Word),
    (∀ k : WordIndex, size = 4 → addr = 4 * k.toNat →
      perform (.busWrite addr size v) s = perform (.hostWrite k v) s ∧
        perform (.busRead addr size) s = perform (.hostRead k) s) ∧
    (size ≠ 4 ∨ addr % 4 ≠ 0 →
      perform (.busWrite addr size v) s = .refused .subWordAccess ∧
        perform (.busRead addr size) s = .refused .subWordAccess) ∧
    (size = 4 → addr % 4 = 0 → 64 ≤ addr →
      perform (.busWrite addr size v) s = .refused .outsideWindow ∧
        perform (.busRead addr size) s = .refused .outsideWindow)

/-- 42_controller.md R78, 44_host_registers.md R105, R107, R108: while a command runs, no host access changes anything
but `QSEL`, `OVERRUN` and the port's data word (the model's own field, notes/assumptions/5.md): the host can neither
cancel the command nor start another. -/
def Obligations.HostCannotDisturbRunningCommand : Prop :=
  ∀ (s : State) (k : WordIndex) (v : Word) (e : Event), s.phase ≠ .idle → e ∈ [.hostWrite k v, .hostRead k] →
    ∃ (q : Channel) (o : Bool) (d : Option Word),
      perform e s = .next { s with qsel := q, status := { s.status with overrun := o }, readData := d }

/-! ## Reset -/

/-- 70_reset_and_hazards.md R124: the reset step, from any state, sets every item to its reset value and leaves the
parameters and the ROM. (That the schedule goes on and the data word is cleared is the model's choice,
notes/assumptions/1.md and 5.md.) -/
def Obligations.ResetStepSetsEverything : Prop :=
  ∀ s : State, s.nextEvent = .reset →
    ∃ t : State, step s = .next t ∧
      t.cfg = s.cfg ∧ t.ls = List.replicate s.cfg.numLights { power := .off, brightness := 0 } ∧
      t.cmd = 0 ∧ regRead 1 t = 0 ∧ t.result0 = 0 ∧ t.qsel = 0 ∧ t.phase = .idle ∧
      t.cmdCh = 0 ∧ t.cmdDp = .off ∧ t.cmdSb = false ∧ t.cmdDb = 0 ∧ t.leg = .power ∧ t.op = .on ∧
      t.code0 = 0 ∧ t.code1 = 0 ∧ t.stepsLeft = 0 ∧ t.txOut = none ∧ t.pubOut = none ∧ t.delayRun = false

/-- 70_reset_and_hazards.md R125, 60_exceptions.md R118: a response that finds no outstanding request, as after a
reset, is discarded (that such a response may come at all is the model's choice, DEDUCED, notes/assumptions/2.md). -/
def Obligations.LateResponseIsDiscarded : Prop :=
  ∀ s : State,
    (∀ r : TxResponse, s.txOut = none → s.nextEvent = .txPort r → step s = .next s.takeEvent) ∧
    (∀ r : PubResponse, s.pubOut = none → s.nextEvent = .sink r → step s = .next s.takeEvent)

/-- The block built from any legal parameters starts in the invariant (10_state.md R16, R19, R27,
70_reset_and_hazards.md R124, R127), and so does the model's `State.reset`, which is built from legal parameters
nobody gives (the model's choice, notes/assumptions/4.md). -/
def Obligations.ResetMeetsInvariant : Prop :=
  (∀ c : Config, c.wf = true → Inv (State.powerOn c)) ∧ Inv State.reset

/-! ## Whole-machine rules -/

/-- 43_sequencer.md R99: when the sequencer is next in phase `EXEC` and `CMD` decodes to a command, the step is that
command's `exec` on the state with the choice taken; and placing a command word, the model's way to run one
(notes/assumptions/9.md), makes the very next step that. -/
def Obligations.StepRunsDecodedCommand : Prop :=
  (∀ (s : State) (i : Instr), s.nextEvent = .sequencer → s.phase = .exec → decode s.cmd = .ok i →
    step s = exec i s.takeEvent) ∧
  (∀ (s : State) (i : Instr),
    step (s.withFetchWord 32 (encode i).toNat) = exec i (accept (encode i) s))

/-- 30_encoding.md R55: the sequencer runs an accepted word as the command its opcode names when every bit of that
opcode's mask is 0, and every other word ends at once with `IllegalCommand` and the result 0, and nothing else
changes. -/
def Obligations.EveryWordIsACommandOrIllegal : Prop :=
  ∀ s : State, s.nextEvent = .sequencer → s.phase = .exec →
    let opcode := s.cmd.toNat / 2 ^ 28
    (opcode = 1 → s.cmd &&& 0x0F00_3F80 = 0 →
      ∃ ch dp sb db, step s = exec (.requestState ch dp sb db) s.takeEvent) ∧
    (opcode = 2 → s.cmd &&& 0x0F00_CEFF = 0 → ∃ ch op sub, step s = exec (.lookup ch op sub) s.takeEvent) ∧
    (opcode = 3 → s.cmd &&& 0x0F00_CEFF = 0 → ∃ ch op sub, step s = exec (.encode ch op sub) s.takeEvent) ∧
    (opcode = 0 ∨ 4 ≤ opcode ∨ opcode = 1 ∧ s.cmd &&& 0x0F00_3F80 ≠ 0 ∨ opcode ≠ 1 ∧ s.cmd &&& 0x0F00_CEFF ≠ 0 →
      step s =
        .next
          { s.takeEvent with
            result0 := 0
            status := { s.status with done := true, err := .illegalCommand }
            txOut := none
            pubOut := none
            delayRun := false
            phase := .idle })

/-- The invariant of Safety.lean (10_state.md R15, R18, R21, R22, R27; 41_encoder.md R71; 43_sequencer.md R97, R98) is
kept by every step of every agent. -/
def Obligations.StepKeepsInvariant : Prop :=
  ∀ s t : State, Inv s → step s = .next t → Inv t

/-- 10_state.md R31, 20_memory.md R35: no step of any agent changes the parameters or the ROM. -/
def Obligations.StepKeepsParameters : Prop := ∀ s t : State, step s = .next t → t.cfg = s.cfg

/-- 10_state.md R17, 20_memory.md R45 item 5, 42_controller.md R86: a step that is not the reset changes the light
states, or newly has a publish outstanding, only as a commit: the port's `OK` in `ONOFF_TX` or the last dim delay's
expiry. Then one entry is written, its leg's bit is set, and the entry written is published, all in that step. -/
def Obligations.OnlyCommitsWriteLightsAndPublish : Prop :=
  ∀ s t : State, step s = .next t → s.nextEvent ≠ .reset →
    (t.ls ≠ s.ls ∨ s.pubOut = none ∧ t.pubOut ≠ none) →
    (s.phase = .onOffTx ∧ s.nextEvent = .txPort .ok ∨
      s.phase = .dimDelay ∧ s.nextEvent = .sequencer ∧ s.stepsLeft = 0) ∧
    (if s.phase = .onOffTx ∧ s.leg = .power then t.status.pLeg = true else t.status.bLeg = true) ∧
    ∃ l : LightState, t.ls = s.ls.set s.cmdCh.toNat l ∧
      t.pubOut = some { channel := s.cmdCh, power := l.power, brightness := l.brightness } ∧ t.phase = .pub

/-- 41_encoder.md R71, 43_sequencer.md R93: every request the block puts on the transmission port is the payload of a
code word the encoder gave for a row of the table, with repeat 4 or 1 and no delay between. -/
def Obligations.EverySendIsAnEncodedRow : Prop :=
  ∀ (s t : State) (r : TxRequest), Inv s → step s = .next t → t.txOut = some r →
    r.delayBetween = 0 ∧ (r.repeatCount = 4 ∨ r.repeatCount = 1) ∧
      ∃ (w : Word) (code : Word), w ∈ t.cfg.pulseTable ∧ encodeRow (rowOf w) = some code ∧ r.payload = payload code

/-- 43_sequencer.md R97: at most one port request is outstanding, across both ports, after every step. -/
def Obligations.AtMostOnePortRequest : Prop :=
  ∀ s t : State, Inv s → step s = .next t → t.txOut = none ∨ t.pubOut = none

/-- 44_host_registers.md R107, 70_reset_and_hazards.md R129: a step that leaves the block busy leaves `DONE`, `ERR` and
`RESULT0` reading 0. -/
def Obligations.BusyReadsShowNoResult : Prop :=
  ∀ s t : State, Inv s → step s = .next t → (regRead 1 t).getLsbD 0 = true →
    (regRead 1 t).getLsbD 1 = false ∧ (regRead 1 t).extractLsb' 4 4 = 0 ∧ regRead 2 t = 0

/-- 43_sequencer.md R103, 60_exceptions.md R118: in a phase that is not idle exactly one of the sequencer, the port and
the sink has an enabled step, and it changes the state. That a step of an agent that is not enabled may come at all
and leaves the block as it is, is the model's choice (DEDUCED, notes/assumptions/2.md). -/
def Obligations.OneAgentMovesABusyBlock : Prop :=
  ∀ (s : State) (answer : Bool) (e : Event), Inv s → s.phase ≠ .idle →
    e ∈ [Event.sequencer, .txPort .ok, .txPort .transmitError, .sink .ok, .sink .publishError] →
    (perform e s = .next s ↔
      e ∉ [movingEvent answer s, movingEvent (!answer) s])

/-- 60_exceptions.md R110, 20_memory.md R40: no step stops the machine but a bridged access that is not a whole aligned
word of the window, which the model refuses (notes/assumptions/7.md). -/
def Obligations.OnlyBridgedAccessesAreRefused : Prop :=
  ∀ s : State,
    (∃ t, step s = .next t) ∨
      ∃ (addr size : Nat) (v : Word), s.nextEvent ∈ [.busRead addr size, .busWrite addr size v] ∧
        (size ≠ 4 ∨ addr % 4 ≠ 0 ∨ 64 ≤ addr)

/-! ## The whole of REQUEST_STATE -/

/-- 43_sequencer.md R103: the phase machine does exactly what the pseudocode of 42_controller.md R77 does: under the
same answers of the ports it goes through the same sends, delays and publishes in the same order, makes the same
commits and finishes with the same error, status bits and result. It takes at most 196 steps. -/
def Obligations.PhaseMachineRunsTheProcedure : Prop :=
  ∀ (s : State) (ch : Channel) (dp : Power) (sb : Bool) (db : Brightness) (answers : Nat → Bool) (n : Nat),
    Inv s → s.phase = .exec → decode s.cmd = .ok (.requestState ch dp sb db) → 196 ≤ n →
    let p := requestProcedure s.cfg answers ch dp sb db (runOf s)
    (drive answers n s []).2 = p.1.waits ∧ EndsAs s (drive answers n s []).1 ch p.1 p.2

/-- 42_controller.md R89, item 1: a request that finishes with `OK` for a reachable pair leaves its channel's entry
exactly that pair, and every other entry as it was. -/
def Obligations.SuccessfulRequestReachesItsTarget : Prop :=
  ∀ (s : State) (ch : Channel) (dp : Power) (db : Brightness) (answers : Nat → Bool),
    Inv s → s.phase = .exec → decode s.cmd = .ok (.requestState ch dp true db) →
    Reachable { power := dp, brightness := db } →
    let t := (drive answers 196 s []).1
    t.status.err = .ok →
      t.light ch = { power := dp, brightness := db } ∧ ∀ c : Channel, c ≠ ch → t.light c = s.light c

/-- 42_controller.md R87, 60_exceptions.md R115: an error undoes nothing and no later leg runs: the light states are
the power leg's commit if `PLEG` shows one, else as they were, and `BLEG` is 0. -/
def Obligations.FailedRequestKeepsOnlyEarlierCommit : Prop :=
  ∀ (s : State) (ch : Channel) (dp : Power) (sb : Bool) (db : Brightness) (answers : Nat → Bool),
    Inv s → s.phase = .exec → decode s.cmd = .ok (.requestState ch dp sb db) →
    let t := (drive answers 196 s []).1
    t.status.err ≠ .ok →
      t.status.bLeg = false ∧
      (t.status.pLeg = false → t.ls = s.ls) ∧
      (t.status.pLeg = true →
        t.ls = s.ls.set ch.toNat { power := dp, brightness := if dp = .on then 64 else 0 })

/-- 42_controller.md R89 item 3, R83, 43_sequencer.md R92: with the power unchanged and the port answering `OK`, a
request from brightness `b` to another of 2 to 64 sends exactly `|db − b|` pairs, row 0 then row 1, each send with
repeat 1, one delay after each pair, then publishes once. -/
def Obligations.DimSendsExactPairs : Prop :=
  ∀ (s : State) (ch : Channel) (db : Brightness) (code0 code1 : Word),
    let b := (s.light ch).brightness
    let o := if b.toNat < db.toNat then Operation.dimUp else Operation.dimDown
    Inv s → s.phase = .exec → decode s.cmd = .ok (.requestState ch (s.light ch).power true db) →
    ch.toNat < s.cfg.numLights → 2 ≤ db.toNat → db.toNat ≤ 64 → db ≠ b →
    rowCode s.cfg ch o false = some code0 → rowCode s.cfg ch o true = some code1 →
    (drive (fun _ => true) 196 s []).2 =
      (List.replicate (if b.toNat < db.toNat then db.toNat - b.toNat else b.toNat - db.toNat)
        [.send { payload := payload code0, repeatCount := 1, delayBetween := 0 },
          .send { payload := payload code1, repeatCount := 1, delayBetween := 0 }, .delay]).flatten ++
        [.publish { channel := ch, power := (s.light ch).power, brightness := db }]

/-- 70_reset_and_hazards.md R130, 42_controller.md R86: whatever the ports answer, a request that is always answered
is idle after 196 steps, with at most 129 sends, 64 delays and 2 publishes, and it has published once for each leg
that committed. -/
def Obligations.RequestEndsWithinBounds : Prop :=
  ∀ (s : State) (ch : Channel) (dp : Power) (sb : Bool) (db : Brightness) (answers : Nat → Bool),
    Inv s → s.phase = .exec → decode s.cmd = .ok (.requestState ch dp sb db) →
    let d := drive answers 196 s []
    d.1.phase = .idle ∧ (d.2.filter Wait.isSend).length ≤ 129 ∧ (d.2.filter Wait.isDelay).length ≤ 64 ∧
      (d.2.filter Wait.isPublish).length = d.1.status.pLeg.toNat + d.1.status.bLeg.toNat
end

