-- ==== Sys2Proof/Laws/Decode.lean ====
section
/-! SUPPORT. The command word as a number: each field's value, each reserved-bit mask, and when the decoder answers
which command (30_encoding.md R53 to R56). -/

namespace Sys2Proof

/-! ## Enumerations as bits -/

theorem power_bit_ofBit (c : BitVec 1) : (Power.ofBit c).bit = c := by revert c; decide

theorem operation_code_ofCode (c : BitVec 2) : (Operation.ofCode c).code = c := by revert c; decide

theorem power_bit_inj {a b : Power} (h : a.bit.toNat = b.bit.toNat) : a = b := by
  revert h; cases a <;> cases b <;> decide

theorem operation_code_inj {a b : Operation} (h : a.code.toNat = b.code.toNat) : a = b := by
  revert h; cases a <;> cases b <;> decide

theorem boolBit_inj {a b : Bool} (h : (boolBit a).toNat = (boolBit b).toNat) : a = b := by
  revert h; cases a <;> cases b <;> decide

theorem boolBit_toNat (b : Bool) : (boolBit b).toNat = b.toNat := by cases b <;> rfl

/-! ## The value of a field -/

theorem getLsbD_eq_div (w : Word) (k : Nat) : w.getLsbD k = decide (w.toNat / 2 ^ k % 2 = 1) := by
  rw [BitVec.getLsbD, Nat.testBit_eq_decide_div_mod_eq]

theorem opcodeOf_toNat (w : Word) : (opcodeOf w).toNat = w.toNat / 2 ^ 28 := by
  have := w.isLt
  simp [opcodeOf, Nat.shiftRight_eq_div_pow]; omega

theorem channelOf_toNat (w : Word) : (channelOf w).toNat = w.toNat / 2 ^ 16 % 256 := by
  simp [channelOf, Nat.shiftRight_eq_div_pow]

theorem desiredPowerOf_toNat (w : Word) : (desiredPowerOf w).bit.toNat = w.toNat / 2 ^ 15 % 2 := by
  rw [desiredPowerOf, power_bit_ofBit]; simp [Nat.shiftRight_eq_div_pow]

theorem setBrightnessOf_toNat (w : Word) : (boolBit (setBrightnessOf w)).toNat = w.toNat / 2 ^ 14 % 2 := by
  rw [boolBit_toNat, setBrightnessOf, getLsbD_eq_div]
  rcases Nat.mod_two_eq_zero_or_one (w.toNat / 2 ^ 14) with h | h <;> rw [h] <;> rfl

theorem desiredBrightnessOf_toNat (w : Word) : (desiredBrightnessOf w).toNat = w.toNat % 128 := by
  simp [desiredBrightnessOf]

theorem operationOf_toNat (w : Word) : (operationOf w).code.toNat = w.toNat / 2 ^ 12 % 4 := by
  rw [operationOf, operation_code_ofCode]; simp [Nat.shiftRight_eq_div_pow]

theorem subIndexOf_toNat (w : Word) : (boolBit (subIndexOf w)).toNat = w.toNat / 2 ^ 8 % 2 := by
  rw [boolBit_toNat, subIndexOf, getLsbD_eq_div]
  rcases Nat.mod_two_eq_zero_or_one (w.toNat / 2 ^ 8) with h | h <;> rw [h] <;> rfl

theorem opcodeOf_eq_iff (w : Word) (n : Nat) (h : n < 16) : opcodeOf w = BitVec.ofNat 4 n ↔ w.toNat / 2 ^ 28 = n := by
  rw [← BitVec.toNat_inj, opcodeOf_toNat]; simp; omega

/-! ## The value of an encoded word -/

theorem toNat_append_add {n m : Nat} (x : BitVec n) (y : BitVec m) :
    (x ++ y).toNat = x.toNat * 2 ^ m + y.toNat := by
  rw [BitVec.toNat_append, Nat.shiftLeft_eq, Nat.mul_comm, Nat.two_pow_add_eq_or_of_lt y.isLt]

theorem encode_requestState_toNat (ch : Channel) (dp : Power) (sb : Bool) (db : Brightness) :
    (encode (.requestState ch dp sb db)).toNat =
      2 ^ 28 + ch.toNat * 2 ^ 16 + dp.bit.toNat * 2 ^ 15 + (boolBit sb).toNat * 2 ^ 14 + db.toNat := by
  unfold encode
  erw [toNat_append_add, toNat_append_add, toNat_append_add, toNat_append_add, toNat_append_add, toNat_append_add]
  simp; omega

theorem formatT_toNat (o : BitVec 4) (ch : Channel) (op : Operation) (sub : Bool) :
    (formatT o ch op sub).toNat =
      o.toNat * 2 ^ 28 + ch.toNat * 2 ^ 16 + op.code.toNat * 2 ^ 12 + (boolBit sub).toNat * 2 ^ 8 := by
  unfold formatT
  erw [toNat_append_add, toNat_append_add, toNat_append_add, toNat_append_add, toNat_append_add, toNat_append_add,
    toNat_append_add]
  simp; omega

/-! ## Reserved bits -/

/-- A mask is clear when each of its bits is. -/
theorem and_eq_zero_iff_bits (w m : Word) : w &&& m = 0 ↔ ∀ i < 32, m.getLsbD i = true → w.getLsbD i = false := by
  constructor
  · intro h i hi hm
    have := congrArg (fun v => v.getLsbD i) h
    simpa [hm] using this
  · intro h; ext i hi
    have := h i hi
    simp only [BitVec.getElem_and]
    cases hm : m[i] with
    | false => simp
    | true => simpa [BitVec.getLsbD_eq_getElem hi, hm] using this

/-- The reserved fields of format R are `w[27:24]` and `w[13:7]` (30_encoding.md R53). -/
theorem reservedR_clear_iff (w : Word) :
    w &&& reservedR = 0 ↔ w.toNat / 2 ^ 24 % 16 = 0 ∧ w.toNat / 2 ^ 7 % 128 = 0 := by
  rw [and_eq_zero_iff_bits]
  constructor
  · intro h
    have g : ∀ i, i < 32 → reservedR.getLsbD i = true → w.toNat / 2 ^ i % 2 = 0 := by
      intro i hi hm; have := h i hi hm; rw [getLsbD_eq_div] at this; simp at this; omega
    have := g 24 (by omega) (by decide)
    have := g 25 (by omega) (by decide)
    have := g 26 (by omega) (by decide)
    have := g 27 (by omega) (by decide)
    have := g 7 (by omega) (by decide)
    have := g 8 (by omega) (by decide)
    have := g 9 (by omega) (by decide)
    have := g 10 (by omega) (by decide)
    have := g 11 (by omega) (by decide)
    have := g 12 (by omega) (by decide)
    have := g 13 (by omega) (by decide)
    omega
  · rintro ⟨h1, h2⟩ i hi hm
    rw [getLsbD_eq_div]
    have : i = 7 ∨ i = 8 ∨ i = 9 ∨ i = 10 ∨ i = 11 ∨ i = 12 ∨ i = 13 ∨ i = 24 ∨ i = 25 ∨ i = 26 ∨ i = 27 := by
      revert hm; revert i; decide
    simp only [decide_eq_false_iff_not]
    rcases this with rfl | rfl | rfl | rfl | rfl | rfl | rfl | rfl | rfl | rfl | rfl <;> omega

/-- The reserved fields of format T are `w[27:24]`, `w[15:14]`, `w[11:9]` and `w[7:0]` (30_encoding.md R54). -/
theorem reservedT_clear_iff (w : Word) :
    w &&& reservedT = 0 ↔
      w.toNat / 2 ^ 24 % 16 = 0 ∧ w.toNat / 2 ^ 14 % 4 = 0 ∧ w.toNat / 2 ^ 9 % 8 = 0 ∧ w.toNat % 256 = 0 := by
  rw [and_eq_zero_iff_bits]
  constructor
  · intro h
    have g : ∀ i, i < 32 → reservedT.getLsbD i = true → w.toNat / 2 ^ i % 2 = 0 := by
      intro i hi hm; have := h i hi hm; rw [getLsbD_eq_div] at this; simp at this; omega
    refine ⟨?_, ?_, ?_, ?_⟩
    · have := g 24 (by omega) (by decide)
      have := g 25 (by omega) (by decide)
      have := g 26 (by omega) (by decide)
      have := g 27 (by omega) (by decide)
      clear g h; omega
    · have := g 14 (by omega) (by decide)
      have := g 15 (by omega) (by decide)
      clear g h; omega
    · have := g 9 (by omega) (by decide)
      have := g 10 (by omega) (by decide)
      have := g 11 (by omega) (by decide)
      clear g h; omega
    · have a0 := g 0 (by omega) (by decide)
      have a1 := g 1 (by omega) (by decide)
      have a2 := g 2 (by omega) (by decide)
      have a3 := g 3 (by omega) (by decide)
      have a4 := g 4 (by omega) (by decide)
      have a5 := g 5 (by omega) (by decide)
      have a6 := g 6 (by omega) (by decide)
      have a7 := g 7 (by omega) (by decide)
      clear g h
      have b1 : w.toNat % 4 = 0 := by clear a2 a3 a4 a5 a6 a7; omega
      have b2 : w.toNat % 16 = 0 := by clear a0 a1 a4 a5 a6 a7; omega
      have b3 : w.toNat % 64 = 0 := by clear a0 a1 a2 a3 a6 a7; omega
      clear a0 a1 a2 a3 a4 a5; omega
  · rintro ⟨h1, h2, h3, h4⟩ i hi hm
    rw [getLsbD_eq_div]
    have : i < 8 ∨ (9 ≤ i ∧ i ≤ 11) ∨ (14 ≤ i ∧ i ≤ 15) ∨ (24 ≤ i ∧ i ≤ 27) := by
      revert hm; revert i; decide
    simp only [decide_eq_false_iff_not]
    rcases this with h | h | h | h
    · clear h1 h2 h3; interval_cases i <;> omega
    · clear h1 h2 h4; obtain ⟨ha, hb⟩ := h; interval_cases i <;> omega
    · clear h1 h3 h4; obtain ⟨ha, hb⟩ := h; interval_cases i <;> omega
    · clear h2 h3 h4; obtain ⟨ha, hb⟩ := h; interval_cases i <;> omega

/-! ## When the decoder answers which command -/

theorem decode_requestState_iff (w : Word) (ch : Channel) (dp : Power) (sb : Bool) (db : Brightness) :
    decode w = .ok (.requestState ch dp sb db) ↔
      (w.toNat / 2 ^ 28 = 1 ∧ w &&& reservedR = 0) ∧
        channelOf w = ch ∧ desiredPowerOf w = dp ∧ setBrightnessOf w = sb ∧ desiredBrightnessOf w = db := by
  have e1 : opcodeOf w = 1 ↔ _ := opcodeOf_eq_iff w 1 (by omega)
  unfold decode; rw [← e1]
  split_ifs <;> simp_all

theorem decode_lookup_iff (w : Word) (ch : Channel) (op : Operation) (sub : Bool) :
    decode w = .ok (.lookup ch op sub) ↔
      (w.toNat / 2 ^ 28 = 2 ∧ w &&& reservedT = 0) ∧ channelOf w = ch ∧ operationOf w = op ∧ subIndexOf w = sub := by
  have e1 : opcodeOf w = 2 ↔ _ := opcodeOf_eq_iff w 2 (by omega)
  unfold decode; rw [← e1]
  split_ifs <;> simp_all

theorem decode_encode_iff (w : Word) (ch : Channel) (op : Operation) (sub : Bool) :
    decode w = .ok (.encode ch op sub) ↔
      (w.toNat / 2 ^ 28 = 3 ∧ w &&& reservedT = 0) ∧ channelOf w = ch ∧ operationOf w = op ∧ subIndexOf w = sub := by
  have e1 : opcodeOf w = 3 ↔ _ := opcodeOf_eq_iff w 3 (by omega)
  unfold decode; rw [← e1]
  split_ifs <;> simp_all

end Sys2Proof
end

