-- ==== Sys2Proof/Laws/Encoder.lean ====
section
/-! SUPPORT. What the encoder's loop does to the cursor and to each bit of the code word (41_encoder.md R69, R70). -/

namespace Sys2Proof.Machine

theorem rowWidth_cons (c : PulseCount) (cs : List PulseCount) :
    rowWidth (c :: cs) = 2 * c.toNat + 1 + rowWidth cs := by simp [rowWidth]

theorem encodeRow_eq_none_iff (row : List PulseCount) : encodeRow row = none ↔ 28 < rowWidth row := by
  unfold encodeRow codeSlots; split <;> simp_all

theorem encodeRow_eq_some_iff (row : List PulseCount) (code : Word) :
    encodeRow row = some code ↔ rowWidth row ≤ 28 ∧ (placeRow row codeInit cursorInit).1 = code := by
  unfold encodeRow codeSlots
  split <;> simp <;> omega

/-- The cursor moves two positions down a pulse. -/
theorem placePulses_cursor (n : Nat) (code : Word) (bit : Int) : (placePulses n code bit).2 = bit - 2 * n := by
  induction n generalizing code bit with
  | zero => simp [placePulses]
  | succ n ih => rw [placePulses, ih]; push_cast; ring

/-- The cursor moves the row's width down. -/
theorem placeRow_cursor (row : List PulseCount) (code : Word) (bit : Int) :
    (placeRow row code bit).2 = bit - rowWidth row := by
  induction row generalizing code bit with
  | nil => simp [placeRow, rowWidth]
  | cons c cs ih =>
    rw [placeRow, ih, placePulses_cursor, rowWidth_cons]
    push_cast; ring

theorem bitAt_getLsbD (bit : Int) (h0 : 0 ≤ bit) (h : bit < 32) (p : Nat) :
    (bitAt bit).getLsbD p = decide ((p : Int) = bit) := by
  unfold bitAt
  obtain ⟨n, rfl⟩ := Int.eq_ofNat_of_zero_le h0
  simp [BitVec.getLsbD_shiftLeft]
  by_cases hp : p = n
  · subst hp; simp; omega
  · simp [hp]; omega

/-- The bits a count sets: every other one from the cursor down. -/
theorem placePulses_bits (n : Nat) (code : Word) (bit : Int) (h : 2 * (n : Int) ≤ bit + 2) (hb : bit < 32) (p : Nat) :
    (placePulses n code bit).1.getLsbD p = true ↔
      code.getLsbD p = true ∨ ∃ k < n, (p : Int) + 2 * k = bit := by
  induction n generalizing code bit with
  | zero => simp [placePulses]
  | succ n ih =>
    rw [placePulses, ih _ _ (by push_cast at h; omega) (by omega), BitVec.getLsbD_or,
      bitAt_getLsbD _ (by push_cast at h; omega) hb]
    simp only [Bool.or_eq_true, decide_eq_true_eq, or_assoc]
    apply or_congr Iff.rfl
    constructor
    · rintro (h | ⟨k, hk, h⟩)
      · exact ⟨0, by omega, by simpa using h⟩
      · exact ⟨k + 1, by omega, by push_cast; omega⟩
    · rintro ⟨k, hk, h⟩
      rcases k with _ | k
      · left; simpa using h
      · right; exact ⟨k, by omega, by push_cast at h; omega⟩

/-- The bits a row sets: for each count, its pulses below where the counts before it leave the cursor. -/
theorem placeRow_bits (row : List PulseCount) (code : Word) (bit : Int) (h : (rowWidth row : Int) ≤ bit + 1)
    (hb : bit < 32) (p : Nat) :
    (placeRow row code bit).1.getLsbD p = true ↔
      code.getLsbD p = true ∨
        ∃ i k : Nat, ∃ h : i < row.length, k < row[i].toNat ∧ (p : Int) + rowWidth (row.take i) + 2 * k = bit := by
  induction row generalizing code bit with
  | nil => simp [placeRow]
  | cons c cs ih =>
    rw [rowWidth_cons] at h; push_cast at h
    rw [placeRow, placePulses_cursor, ih _ _ (by omega) (by omega), placePulses_bits _ _ _ (by omega) hb, or_assoc]
    apply or_congr Iff.rfl
    constructor
    · rintro (⟨k, hk, e⟩ | ⟨i, k, hi, hk, e⟩)
      · exact ⟨0, k, by simp, by simpa using hk, by simpa [rowWidth] using e⟩
      · refine ⟨i + 1, k, by simp; omega, by simpa using hk, ?_⟩
        rw [List.take_succ_cons, rowWidth_cons]; push_cast; omega
    · rintro ⟨i, k, hi, hk, e⟩
      rcases i with _ | i
      · left; exact ⟨k, by simpa using hk, by simpa [rowWidth] using e⟩
      · right
        rw [List.take_succ_cons, rowWidth_cons] at e; push_cast at e
        exact ⟨i, k, by simpa using hi, by simpa using hk, by omega⟩

end Sys2Proof.Machine
end

