-- ==== Sys2Proof/Laws/State.lean ====
section
/-! SUPPORT. One lemma a field and update of State, so that no proof unfolds a record update. -/

namespace Sys2Proof.Machine

/-! ### `State.setLight` -/

@[simp] theorem setLight_cfg (s : State) (ch : Channel) (l : LightState) :
    (s.setLight ch l).cfg = s.cfg := rfl
@[simp] theorem setLight_ls (s : State) (ch : Channel) (l : LightState) :
    (s.setLight ch l).ls = s.ls.set ch.toNat l := rfl
@[simp] theorem setLight_cmd (s : State) (ch : Channel) (l : LightState) :
    (s.setLight ch l).cmd = s.cmd := rfl
@[simp] theorem setLight_status (s : State) (ch : Channel) (l : LightState) :
    (s.setLight ch l).status = s.status := rfl
@[simp] theorem setLight_result0 (s : State) (ch : Channel) (l : LightState) :
    (s.setLight ch l).result0 = s.result0 := rfl
@[simp] theorem setLight_qsel (s : State) (ch : Channel) (l : LightState) :
    (s.setLight ch l).qsel = s.qsel := rfl
@[simp] theorem setLight_phase (s : State) (ch : Channel) (l : LightState) :
    (s.setLight ch l).phase = s.phase := rfl
@[simp] theorem setLight_cmdCh (s : State) (ch : Channel) (l : LightState) :
    (s.setLight ch l).cmdCh = s.cmdCh := rfl
@[simp] theorem setLight_cmdDp (s : State) (ch : Channel) (l : LightState) :
    (s.setLight ch l).cmdDp = s.cmdDp := rfl
@[simp] theorem setLight_cmdSb (s : State) (ch : Channel) (l : LightState) :
    (s.setLight ch l).cmdSb = s.cmdSb := rfl
@[simp] theorem setLight_cmdDb (s : State) (ch : Channel) (l : LightState) :
    (s.setLight ch l).cmdDb = s.cmdDb := rfl
@[simp] theorem setLight_leg (s : State) (ch : Channel) (l : LightState) :
    (s.setLight ch l).leg = s.leg := rfl
@[simp] theorem setLight_op (s : State) (ch : Channel) (l : LightState) :
    (s.setLight ch l).op = s.op := rfl
@[simp] theorem setLight_code0 (s : State) (ch : Channel) (l : LightState) :
    (s.setLight ch l).code0 = s.code0 := rfl
@[simp] theorem setLight_code1 (s : State) (ch : Channel) (l : LightState) :
    (s.setLight ch l).code1 = s.code1 := rfl
@[simp] theorem setLight_stepsLeft (s : State) (ch : Channel) (l : LightState) :
    (s.setLight ch l).stepsLeft = s.stepsLeft := rfl
@[simp] theorem setLight_txOut (s : State) (ch : Channel) (l : LightState) :
    (s.setLight ch l).txOut = s.txOut := rfl
@[simp] theorem setLight_pubOut (s : State) (ch : Channel) (l : LightState) :
    (s.setLight ch l).pubOut = s.pubOut := rfl
@[simp] theorem setLight_delayRun (s : State) (ch : Channel) (l : LightState) :
    (s.setLight ch l).delayRun = s.delayRun := rfl
@[simp] theorem setLight_readData (s : State) (ch : Channel) (l : LightState) :
    (s.setLight ch l).readData = s.readData := rfl
@[simp] theorem setLight_schedule (s : State) (ch : Channel) (l : LightState) :
    (s.setLight ch l).schedule = s.schedule := rfl
@[simp] theorem setLight_drawn (s : State) (ch : Channel) (l : LightState) :
    (s.setLight ch l).drawn = s.drawn := rfl

/-! ### `accept` -/

@[simp] theorem accept_cfg (v : Word) (s : State) :
    (accept v s).cfg = s.cfg := rfl
@[simp] theorem accept_ls (v : Word) (s : State) :
    (accept v s).ls = s.ls := rfl
@[simp] theorem accept_cmd (v : Word) (s : State) :
    (accept v s).cmd = v := rfl
@[simp] theorem accept_status (v : Word) (s : State) :
    (accept v s).status = Status.clear := rfl
@[simp] theorem accept_result0 (v : Word) (s : State) :
    (accept v s).result0 = 0 := rfl
@[simp] theorem accept_qsel (v : Word) (s : State) :
    (accept v s).qsel = s.qsel := rfl
@[simp] theorem accept_phase (v : Word) (s : State) :
    (accept v s).phase = .exec := rfl
@[simp] theorem accept_cmdCh (v : Word) (s : State) :
    (accept v s).cmdCh = s.cmdCh := rfl
@[simp] theorem accept_cmdDp (v : Word) (s : State) :
    (accept v s).cmdDp = s.cmdDp := rfl
@[simp] theorem accept_cmdSb (v : Word) (s : State) :
    (accept v s).cmdSb = s.cmdSb := rfl
@[simp] theorem accept_cmdDb (v : Word) (s : State) :
    (accept v s).cmdDb = s.cmdDb := rfl
@[simp] theorem accept_leg (v : Word) (s : State) :
    (accept v s).leg = s.leg := rfl
@[simp] theorem accept_op (v : Word) (s : State) :
    (accept v s).op = s.op := rfl
@[simp] theorem accept_code0 (v : Word) (s : State) :
    (accept v s).code0 = s.code0 := rfl
@[simp] theorem accept_code1 (v : Word) (s : State) :
    (accept v s).code1 = s.code1 := rfl
@[simp] theorem accept_stepsLeft (v : Word) (s : State) :
    (accept v s).stepsLeft = s.stepsLeft := rfl
@[simp] theorem accept_txOut (v : Word) (s : State) :
    (accept v s).txOut = s.txOut := rfl
@[simp] theorem accept_pubOut (v : Word) (s : State) :
    (accept v s).pubOut = s.pubOut := rfl
@[simp] theorem accept_delayRun (v : Word) (s : State) :
    (accept v s).delayRun = s.delayRun := rfl
@[simp] theorem accept_readData (v : Word) (s : State) :
    (accept v s).readData = s.readData := rfl
@[simp] theorem accept_schedule (v : Word) (s : State) :
    (accept v s).schedule = s.schedule := rfl
@[simp] theorem accept_drawn (v : Word) (s : State) :
    (accept v s).drawn = s.drawn := rfl

/-! ### `finish` -/

@[simp] theorem finish_cfg (e : ErrorCode) (s : State) :
    (finish e s).cfg = s.cfg := rfl
@[simp] theorem finish_ls (e : ErrorCode) (s : State) :
    (finish e s).ls = s.ls := rfl
@[simp] theorem finish_cmd (e : ErrorCode) (s : State) :
    (finish e s).cmd = s.cmd := rfl
@[simp] theorem finish_status (e : ErrorCode) (s : State) :
    (finish e s).status = s.status.finished e := rfl
@[simp] theorem finish_result0 (e : ErrorCode) (s : State) :
    (finish e s).result0 = s.result0 := rfl
@[simp] theorem finish_qsel (e : ErrorCode) (s : State) :
    (finish e s).qsel = s.qsel := rfl
@[simp] theorem finish_phase (e : ErrorCode) (s : State) :
    (finish e s).phase = .idle := rfl
@[simp] theorem finish_cmdCh (e : ErrorCode) (s : State) :
    (finish e s).cmdCh = s.cmdCh := rfl
@[simp] theorem finish_cmdDp (e : ErrorCode) (s : State) :
    (finish e s).cmdDp = s.cmdDp := rfl
@[simp] theorem finish_cmdSb (e : ErrorCode) (s : State) :
    (finish e s).cmdSb = s.cmdSb := rfl
@[simp] theorem finish_cmdDb (e : ErrorCode) (s : State) :
    (finish e s).cmdDb = s.cmdDb := rfl
@[simp] theorem finish_leg (e : ErrorCode) (s : State) :
    (finish e s).leg = s.leg := rfl
@[simp] theorem finish_op (e : ErrorCode) (s : State) :
    (finish e s).op = s.op := rfl
@[simp] theorem finish_code0 (e : ErrorCode) (s : State) :
    (finish e s).code0 = s.code0 := rfl
@[simp] theorem finish_code1 (e : ErrorCode) (s : State) :
    (finish e s).code1 = s.code1 := rfl
@[simp] theorem finish_stepsLeft (e : ErrorCode) (s : State) :
    (finish e s).stepsLeft = s.stepsLeft := rfl
@[simp] theorem finish_txOut (e : ErrorCode) (s : State) :
    (finish e s).txOut = none := rfl
@[simp] theorem finish_pubOut (e : ErrorCode) (s : State) :
    (finish e s).pubOut = none := rfl
@[simp] theorem finish_delayRun (e : ErrorCode) (s : State) :
    (finish e s).delayRun = false := rfl
@[simp] theorem finish_readData (e : ErrorCode) (s : State) :
    (finish e s).readData = s.readData := rfl
@[simp] theorem finish_schedule (e : ErrorCode) (s : State) :
    (finish e s).schedule = s.schedule := rfl
@[simp] theorem finish_drawn (e : ErrorCode) (s : State) :
    (finish e s).drawn = s.drawn := rfl

/-! ### `finishWith` -/

@[simp] theorem finishWith_cfg (r : Word) (e : ErrorCode) (s : State) :
    (finishWith r e s).cfg = s.cfg := rfl
@[simp] theorem finishWith_ls (r : Word) (e : ErrorCode) (s : State) :
    (finishWith r e s).ls = s.ls := rfl
@[simp] theorem finishWith_cmd (r : Word) (e : ErrorCode) (s : State) :
    (finishWith r e s).cmd = s.cmd := rfl
@[simp] theorem finishWith_status (r : Word) (e : ErrorCode) (s : State) :
    (finishWith r e s).status = s.status.finished e := rfl
@[simp] theorem finishWith_result0 (r : Word) (e : ErrorCode) (s : State) :
    (finishWith r e s).result0 = r := rfl
@[simp] theorem finishWith_qsel (r : Word) (e : ErrorCode) (s : State) :
    (finishWith r e s).qsel = s.qsel := rfl
@[simp] theorem finishWith_phase (r : Word) (e : ErrorCode) (s : State) :
    (finishWith r e s).phase = .idle := rfl
@[simp] theorem finishWith_cmdCh (r : Word) (e : ErrorCode) (s : State) :
    (finishWith r e s).cmdCh = s.cmdCh := rfl
@[simp] theorem finishWith_cmdDp (r : Word) (e : ErrorCode) (s : State) :
    (finishWith r e s).cmdDp = s.cmdDp := rfl
@[simp] theorem finishWith_cmdSb (r : Word) (e : ErrorCode) (s : State) :
    (finishWith r e s).cmdSb = s.cmdSb := rfl
@[simp] theorem finishWith_cmdDb (r : Word) (e : ErrorCode) (s : State) :
    (finishWith r e s).cmdDb = s.cmdDb := rfl
@[simp] theorem finishWith_leg (r : Word) (e : ErrorCode) (s : State) :
    (finishWith r e s).leg = s.leg := rfl
@[simp] theorem finishWith_op (r : Word) (e : ErrorCode) (s : State) :
    (finishWith r e s).op = s.op := rfl
@[simp] theorem finishWith_code0 (r : Word) (e : ErrorCode) (s : State) :
    (finishWith r e s).code0 = s.code0 := rfl
@[simp] theorem finishWith_code1 (r : Word) (e : ErrorCode) (s : State) :
    (finishWith r e s).code1 = s.code1 := rfl
@[simp] theorem finishWith_stepsLeft (r : Word) (e : ErrorCode) (s : State) :
    (finishWith r e s).stepsLeft = s.stepsLeft := rfl
@[simp] theorem finishWith_txOut (r : Word) (e : ErrorCode) (s : State) :
    (finishWith r e s).txOut = none := rfl
@[simp] theorem finishWith_pubOut (r : Word) (e : ErrorCode) (s : State) :
    (finishWith r e s).pubOut = none := rfl
@[simp] theorem finishWith_delayRun (r : Word) (e : ErrorCode) (s : State) :
    (finishWith r e s).delayRun = false := rfl
@[simp] theorem finishWith_readData (r : Word) (e : ErrorCode) (s : State) :
    (finishWith r e s).readData = s.readData := rfl
@[simp] theorem finishWith_schedule (r : Word) (e : ErrorCode) (s : State) :
    (finishWith r e s).schedule = s.schedule := rfl
@[simp] theorem finishWith_drawn (r : Word) (e : ErrorCode) (s : State) :
    (finishWith r e s).drawn = s.drawn := rfl

/-! ### `finishRequest` -/

@[simp] theorem finishRequest_cfg (e : ErrorCode) (s : State) :
    (finishRequest e s).cfg = s.cfg := rfl
@[simp] theorem finishRequest_ls (e : ErrorCode) (s : State) :
    (finishRequest e s).ls = s.ls := rfl
@[simp] theorem finishRequest_cmd (e : ErrorCode) (s : State) :
    (finishRequest e s).cmd = s.cmd := rfl
@[simp] theorem finishRequest_status (e : ErrorCode) (s : State) :
    (finishRequest e s).status = s.status.finished e := rfl
@[simp] theorem finishRequest_result0 (e : ErrorCode) (s : State) :
    (finishRequest e s).result0 = s.snapshot s.cmdCh := rfl
@[simp] theorem finishRequest_qsel (e : ErrorCode) (s : State) :
    (finishRequest e s).qsel = s.qsel := rfl
@[simp] theorem finishRequest_phase (e : ErrorCode) (s : State) :
    (finishRequest e s).phase = .idle := rfl
@[simp] theorem finishRequest_cmdCh (e : ErrorCode) (s : State) :
    (finishRequest e s).cmdCh = s.cmdCh := rfl
@[simp] theorem finishRequest_cmdDp (e : ErrorCode) (s : State) :
    (finishRequest e s).cmdDp = s.cmdDp := rfl
@[simp] theorem finishRequest_cmdSb (e : ErrorCode) (s : State) :
    (finishRequest e s).cmdSb = s.cmdSb := rfl
@[simp] theorem finishRequest_cmdDb (e : ErrorCode) (s : State) :
    (finishRequest e s).cmdDb = s.cmdDb := rfl
@[simp] theorem finishRequest_leg (e : ErrorCode) (s : State) :
    (finishRequest e s).leg = s.leg := rfl
@[simp] theorem finishRequest_op (e : ErrorCode) (s : State) :
    (finishRequest e s).op = s.op := rfl
@[simp] theorem finishRequest_code0 (e : ErrorCode) (s : State) :
    (finishRequest e s).code0 = s.code0 := rfl
@[simp] theorem finishRequest_code1 (e : ErrorCode) (s : State) :
    (finishRequest e s).code1 = s.code1 := rfl
@[simp] theorem finishRequest_stepsLeft (e : ErrorCode) (s : State) :
    (finishRequest e s).stepsLeft = s.stepsLeft := rfl
@[simp] theorem finishRequest_txOut (e : ErrorCode) (s : State) :
    (finishRequest e s).txOut = none := rfl
@[simp] theorem finishRequest_pubOut (e : ErrorCode) (s : State) :
    (finishRequest e s).pubOut = none := rfl
@[simp] theorem finishRequest_delayRun (e : ErrorCode) (s : State) :
    (finishRequest e s).delayRun = false := rfl
@[simp] theorem finishRequest_readData (e : ErrorCode) (s : State) :
    (finishRequest e s).readData = s.readData := rfl
@[simp] theorem finishRequest_schedule (e : ErrorCode) (s : State) :
    (finishRequest e s).schedule = s.schedule := rfl
@[simp] theorem finishRequest_drawn (e : ErrorCode) (s : State) :
    (finishRequest e s).drawn = s.drawn := rfl

/-! ### `issueSend` -/

@[simp] theorem issueSend_cfg (b : List Byte) (n d : Nat) (p : Phase) (s : State) :
    (issueSend b n d p s).cfg = s.cfg := rfl
@[simp] theorem issueSend_ls (b : List Byte) (n d : Nat) (p : Phase) (s : State) :
    (issueSend b n d p s).ls = s.ls := rfl
@[simp] theorem issueSend_cmd (b : List Byte) (n d : Nat) (p : Phase) (s : State) :
    (issueSend b n d p s).cmd = s.cmd := rfl
@[simp] theorem issueSend_status (b : List Byte) (n d : Nat) (p : Phase) (s : State) :
    (issueSend b n d p s).status = s.status := rfl
@[simp] theorem issueSend_result0 (b : List Byte) (n d : Nat) (p : Phase) (s : State) :
    (issueSend b n d p s).result0 = s.result0 := rfl
@[simp] theorem issueSend_qsel (b : List Byte) (n d : Nat) (p : Phase) (s : State) :
    (issueSend b n d p s).qsel = s.qsel := rfl
@[simp] theorem issueSend_phase (b : List Byte) (n d : Nat) (p : Phase) (s : State) :
    (issueSend b n d p s).phase = p := rfl
@[simp] theorem issueSend_cmdCh (b : List Byte) (n d : Nat) (p : Phase) (s : State) :
    (issueSend b n d p s).cmdCh = s.cmdCh := rfl
@[simp] theorem issueSend_cmdDp (b : List Byte) (n d : Nat) (p : Phase) (s : State) :
    (issueSend b n d p s).cmdDp = s.cmdDp := rfl
@[simp] theorem issueSend_cmdSb (b : List Byte) (n d : Nat) (p : Phase) (s : State) :
    (issueSend b n d p s).cmdSb = s.cmdSb := rfl
@[simp] theorem issueSend_cmdDb (b : List Byte) (n d : Nat) (p : Phase) (s : State) :
    (issueSend b n d p s).cmdDb = s.cmdDb := rfl
@[simp] theorem issueSend_leg (b : List Byte) (n d : Nat) (p : Phase) (s : State) :
    (issueSend b n d p s).leg = s.leg := rfl
@[simp] theorem issueSend_op (b : List Byte) (n d : Nat) (p : Phase) (s : State) :
    (issueSend b n d p s).op = s.op := rfl
@[simp] theorem issueSend_code0 (b : List Byte) (n d : Nat) (p : Phase) (s : State) :
    (issueSend b n d p s).code0 = s.code0 := rfl
@[simp] theorem issueSend_code1 (b : List Byte) (n d : Nat) (p : Phase) (s : State) :
    (issueSend b n d p s).code1 = s.code1 := rfl
@[simp] theorem issueSend_stepsLeft (b : List Byte) (n d : Nat) (p : Phase) (s : State) :
    (issueSend b n d p s).stepsLeft = s.stepsLeft := rfl
@[simp] theorem issueSend_txOut (b : List Byte) (n d : Nat) (p : Phase) (s : State) :
    (issueSend b n d p s).txOut = some { payload := b, repeatCount := n, delayBetween := d } := rfl
@[simp] theorem issueSend_pubOut (b : List Byte) (n d : Nat) (p : Phase) (s : State) :
    (issueSend b n d p s).pubOut = s.pubOut := rfl
@[simp] theorem issueSend_delayRun (b : List Byte) (n d : Nat) (p : Phase) (s : State) :
    (issueSend b n d p s).delayRun = s.delayRun := rfl
@[simp] theorem issueSend_readData (b : List Byte) (n d : Nat) (p : Phase) (s : State) :
    (issueSend b n d p s).readData = s.readData := rfl
@[simp] theorem issueSend_schedule (b : List Byte) (n d : Nat) (p : Phase) (s : State) :
    (issueSend b n d p s).schedule = s.schedule := rfl
@[simp] theorem issueSend_drawn (b : List Byte) (n d : Nat) (p : Phase) (s : State) :
    (issueSend b n d p s).drawn = s.drawn := rfl

/-! ### `commitAndPublish` -/

@[simp] theorem commitAndPublish_cfg (l : LightState) (g : Leg) (s : State) :
    (commitAndPublish l g s).cfg = s.cfg := rfl
@[simp] theorem commitAndPublish_ls (l : LightState) (g : Leg) (s : State) :
    (commitAndPublish l g s).ls = s.ls.set s.cmdCh.toNat l := rfl
@[simp] theorem commitAndPublish_cmd (l : LightState) (g : Leg) (s : State) :
    (commitAndPublish l g s).cmd = s.cmd := rfl
@[simp] theorem commitAndPublish_status (l : LightState) (g : Leg) (s : State) :
    (commitAndPublish l g s).status = s.status.committed g := rfl
@[simp] theorem commitAndPublish_result0 (l : LightState) (g : Leg) (s : State) :
    (commitAndPublish l g s).result0 = s.result0 := rfl
@[simp] theorem commitAndPublish_qsel (l : LightState) (g : Leg) (s : State) :
    (commitAndPublish l g s).qsel = s.qsel := rfl
@[simp] theorem commitAndPublish_phase (l : LightState) (g : Leg) (s : State) :
    (commitAndPublish l g s).phase = .pub := rfl
@[simp] theorem commitAndPublish_cmdCh (l : LightState) (g : Leg) (s : State) :
    (commitAndPublish l g s).cmdCh = s.cmdCh := rfl
@[simp] theorem commitAndPublish_cmdDp (l : LightState) (g : Leg) (s : State) :
    (commitAndPublish l g s).cmdDp = s.cmdDp := rfl
@[simp] theorem commitAndPublish_cmdSb (l : LightState) (g : Leg) (s : State) :
    (commitAndPublish l g s).cmdSb = s.cmdSb := rfl
@[simp] theorem commitAndPublish_cmdDb (l : LightState) (g : Leg) (s : State) :
    (commitAndPublish l g s).cmdDb = s.cmdDb := rfl
@[simp] theorem commitAndPublish_leg (l : LightState) (g : Leg) (s : State) :
    (commitAndPublish l g s).leg = s.leg := rfl
@[simp] theorem commitAndPublish_op (l : LightState) (g : Leg) (s : State) :
    (commitAndPublish l g s).op = s.op := rfl
@[simp] theorem commitAndPublish_code0 (l : LightState) (g : Leg) (s : State) :
    (commitAndPublish l g s).code0 = s.code0 := rfl
@[simp] theorem commitAndPublish_code1 (l : LightState) (g : Leg) (s : State) :
    (commitAndPublish l g s).code1 = s.code1 := rfl
@[simp] theorem commitAndPublish_stepsLeft (l : LightState) (g : Leg) (s : State) :
    (commitAndPublish l g s).stepsLeft = s.stepsLeft := rfl
@[simp] theorem commitAndPublish_txOut (l : LightState) (g : Leg) (s : State) :
    (commitAndPublish l g s).txOut = s.txOut := rfl
@[simp] theorem commitAndPublish_pubOut (l : LightState) (g : Leg) (s : State) :
    (commitAndPublish l g s).pubOut = some { channel := s.cmdCh, power := l.power, brightness := l.brightness } := rfl
@[simp] theorem commitAndPublish_delayRun (l : LightState) (g : Leg) (s : State) :
    (commitAndPublish l g s).delayRun = s.delayRun := rfl
@[simp] theorem commitAndPublish_readData (l : LightState) (g : Leg) (s : State) :
    (commitAndPublish l g s).readData = s.readData := rfl
@[simp] theorem commitAndPublish_schedule (l : LightState) (g : Leg) (s : State) :
    (commitAndPublish l g s).schedule = s.schedule := rfl
@[simp] theorem commitAndPublish_drawn (l : LightState) (g : Leg) (s : State) :
    (commitAndPublish l g s).drawn = s.drawn := rfl

/-! ### `latchRequest` -/

@[simp] theorem latchRequest_cfg (ch : Channel) (dp : Power) (sb : Bool) (db : Brightness) (s : State) :
    (latchRequest ch dp sb db s).cfg = s.cfg := rfl
@[simp] theorem latchRequest_ls (ch : Channel) (dp : Power) (sb : Bool) (db : Brightness) (s : State) :
    (latchRequest ch dp sb db s).ls = s.ls := rfl
@[simp] theorem latchRequest_cmd (ch : Channel) (dp : Power) (sb : Bool) (db : Brightness) (s : State) :
    (latchRequest ch dp sb db s).cmd = s.cmd := rfl
@[simp] theorem latchRequest_status (ch : Channel) (dp : Power) (sb : Bool) (db : Brightness) (s : State) :
    (latchRequest ch dp sb db s).status = s.status := rfl
@[simp] theorem latchRequest_result0 (ch : Channel) (dp : Power) (sb : Bool) (db : Brightness) (s : State) :
    (latchRequest ch dp sb db s).result0 = s.result0 := rfl
@[simp] theorem latchRequest_qsel (ch : Channel) (dp : Power) (sb : Bool) (db : Brightness) (s : State) :
    (latchRequest ch dp sb db s).qsel = s.qsel := rfl
@[simp] theorem latchRequest_phase (ch : Channel) (dp : Power) (sb : Bool) (db : Brightness) (s : State) :
    (latchRequest ch dp sb db s).phase = s.phase := rfl
@[simp] theorem latchRequest_cmdCh (ch : Channel) (dp : Power) (sb : Bool) (db : Brightness) (s : State) :
    (latchRequest ch dp sb db s).cmdCh = ch := rfl
@[simp] theorem latchRequest_cmdDp (ch : Channel) (dp : Power) (sb : Bool) (db : Brightness) (s : State) :
    (latchRequest ch dp sb db s).cmdDp = dp := rfl
@[simp] theorem latchRequest_cmdSb (ch : Channel) (dp : Power) (sb : Bool) (db : Brightness) (s : State) :
    (latchRequest ch dp sb db s).cmdSb = sb := rfl
@[simp] theorem latchRequest_cmdDb (ch : Channel) (dp : Power) (sb : Bool) (db : Brightness) (s : State) :
    (latchRequest ch dp sb db s).cmdDb = db := rfl
@[simp] theorem latchRequest_leg (ch : Channel) (dp : Power) (sb : Bool) (db : Brightness) (s : State) :
    (latchRequest ch dp sb db s).leg = s.leg := rfl
@[simp] theorem latchRequest_op (ch : Channel) (dp : Power) (sb : Bool) (db : Brightness) (s : State) :
    (latchRequest ch dp sb db s).op = s.op := rfl
@[simp] theorem latchRequest_code0 (ch : Channel) (dp : Power) (sb : Bool) (db : Brightness) (s : State) :
    (latchRequest ch dp sb db s).code0 = s.code0 := rfl
@[simp] theorem latchRequest_code1 (ch : Channel) (dp : Power) (sb : Bool) (db : Brightness) (s : State) :
    (latchRequest ch dp sb db s).code1 = s.code1 := rfl
@[simp] theorem latchRequest_stepsLeft (ch : Channel) (dp : Power) (sb : Bool) (db : Brightness) (s : State) :
    (latchRequest ch dp sb db s).stepsLeft = s.stepsLeft := rfl
@[simp] theorem latchRequest_txOut (ch : Channel) (dp : Power) (sb : Bool) (db : Brightness) (s : State) :
    (latchRequest ch dp sb db s).txOut = s.txOut := rfl
@[simp] theorem latchRequest_pubOut (ch : Channel) (dp : Power) (sb : Bool) (db : Brightness) (s : State) :
    (latchRequest ch dp sb db s).pubOut = s.pubOut := rfl
@[simp] theorem latchRequest_delayRun (ch : Channel) (dp : Power) (sb : Bool) (db : Brightness) (s : State) :
    (latchRequest ch dp sb db s).delayRun = s.delayRun := rfl
@[simp] theorem latchRequest_readData (ch : Channel) (dp : Power) (sb : Bool) (db : Brightness) (s : State) :
    (latchRequest ch dp sb db s).readData = s.readData := rfl
@[simp] theorem latchRequest_schedule (ch : Channel) (dp : Power) (sb : Bool) (db : Brightness) (s : State) :
    (latchRequest ch dp sb db s).schedule = s.schedule := rfl
@[simp] theorem latchRequest_drawn (ch : Channel) (dp : Power) (sb : Bool) (db : Brightness) (s : State) :
    (latchRequest ch dp sb db s).drawn = s.drawn := rfl

/-! ### `hostRead` -/

@[simp] theorem hostRead_cfg (k : WordIndex) (s : State) :
    (hostRead k s).cfg = s.cfg := rfl
@[simp] theorem hostRead_ls (k : WordIndex) (s : State) :
    (hostRead k s).ls = s.ls := rfl
@[simp] theorem hostRead_cmd (k : WordIndex) (s : State) :
    (hostRead k s).cmd = s.cmd := rfl
@[simp] theorem hostRead_status (k : WordIndex) (s : State) :
    (hostRead k s).status = s.status := rfl
@[simp] theorem hostRead_result0 (k : WordIndex) (s : State) :
    (hostRead k s).result0 = s.result0 := rfl
@[simp] theorem hostRead_qsel (k : WordIndex) (s : State) :
    (hostRead k s).qsel = s.qsel := rfl
@[simp] theorem hostRead_phase (k : WordIndex) (s : State) :
    (hostRead k s).phase = s.phase := rfl
@[simp] theorem hostRead_cmdCh (k : WordIndex) (s : State) :
    (hostRead k s).cmdCh = s.cmdCh := rfl
@[simp] theorem hostRead_cmdDp (k : WordIndex) (s : State) :
    (hostRead k s).cmdDp = s.cmdDp := rfl
@[simp] theorem hostRead_cmdSb (k : WordIndex) (s : State) :
    (hostRead k s).cmdSb = s.cmdSb := rfl
@[simp] theorem hostRead_cmdDb (k : WordIndex) (s : State) :
    (hostRead k s).cmdDb = s.cmdDb := rfl
@[simp] theorem hostRead_leg (k : WordIndex) (s : State) :
    (hostRead k s).leg = s.leg := rfl
@[simp] theorem hostRead_op (k : WordIndex) (s : State) :
    (hostRead k s).op = s.op := rfl
@[simp] theorem hostRead_code0 (k : WordIndex) (s : State) :
    (hostRead k s).code0 = s.code0 := rfl
@[simp] theorem hostRead_code1 (k : WordIndex) (s : State) :
    (hostRead k s).code1 = s.code1 := rfl
@[simp] theorem hostRead_stepsLeft (k : WordIndex) (s : State) :
    (hostRead k s).stepsLeft = s.stepsLeft := rfl
@[simp] theorem hostRead_txOut (k : WordIndex) (s : State) :
    (hostRead k s).txOut = s.txOut := rfl
@[simp] theorem hostRead_pubOut (k : WordIndex) (s : State) :
    (hostRead k s).pubOut = s.pubOut := rfl
@[simp] theorem hostRead_delayRun (k : WordIndex) (s : State) :
    (hostRead k s).delayRun = s.delayRun := rfl
@[simp] theorem hostRead_readData (k : WordIndex) (s : State) :
    (hostRead k s).readData = some (regRead k s) := rfl
@[simp] theorem hostRead_schedule (k : WordIndex) (s : State) :
    (hostRead k s).schedule = s.schedule := rfl
@[simp] theorem hostRead_drawn (k : WordIndex) (s : State) :
    (hostRead k s).drawn = s.drawn := rfl

/-! ### `State.placeCommand` -/

@[simp] theorem placeCommand_cfg (s : State) (w : Word) :
    (s.placeCommand w).cfg = s.cfg := rfl
@[simp] theorem placeCommand_ls (s : State) (w : Word) :
    (s.placeCommand w).ls = s.ls := rfl
@[simp] theorem placeCommand_cmd (s : State) (w : Word) :
    (s.placeCommand w).cmd = w := rfl
@[simp] theorem placeCommand_status (s : State) (w : Word) :
    (s.placeCommand w).status = Status.clear := rfl
@[simp] theorem placeCommand_result0 (s : State) (w : Word) :
    (s.placeCommand w).result0 = 0 := rfl
@[simp] theorem placeCommand_qsel (s : State) (w : Word) :
    (s.placeCommand w).qsel = s.qsel := rfl
@[simp] theorem placeCommand_phase (s : State) (w : Word) :
    (s.placeCommand w).phase = .exec := rfl
@[simp] theorem placeCommand_cmdCh (s : State) (w : Word) :
    (s.placeCommand w).cmdCh = s.cmdCh := rfl
@[simp] theorem placeCommand_cmdDp (s : State) (w : Word) :
    (s.placeCommand w).cmdDp = s.cmdDp := rfl
@[simp] theorem placeCommand_cmdSb (s : State) (w : Word) :
    (s.placeCommand w).cmdSb = s.cmdSb := rfl
@[simp] theorem placeCommand_cmdDb (s : State) (w : Word) :
    (s.placeCommand w).cmdDb = s.cmdDb := rfl
@[simp] theorem placeCommand_leg (s : State) (w : Word) :
    (s.placeCommand w).leg = s.leg := rfl
@[simp] theorem placeCommand_op (s : State) (w : Word) :
    (s.placeCommand w).op = s.op := rfl
@[simp] theorem placeCommand_code0 (s : State) (w : Word) :
    (s.placeCommand w).code0 = s.code0 := rfl
@[simp] theorem placeCommand_code1 (s : State) (w : Word) :
    (s.placeCommand w).code1 = s.code1 := rfl
@[simp] theorem placeCommand_stepsLeft (s : State) (w : Word) :
    (s.placeCommand w).stepsLeft = s.stepsLeft := rfl
@[simp] theorem placeCommand_txOut (s : State) (w : Word) :
    (s.placeCommand w).txOut = s.txOut := rfl
@[simp] theorem placeCommand_pubOut (s : State) (w : Word) :
    (s.placeCommand w).pubOut = s.pubOut := rfl
@[simp] theorem placeCommand_delayRun (s : State) (w : Word) :
    (s.placeCommand w).delayRun = s.delayRun := rfl
@[simp] theorem placeCommand_readData (s : State) (w : Word) :
    (s.placeCommand w).readData = s.readData := rfl
@[simp] theorem placeCommand_schedule (s : State) (w : Word) :
    (s.placeCommand w).schedule = .sequencer :: s.schedule := rfl
@[simp] theorem placeCommand_drawn (s : State) (w : Word) :
    (s.placeCommand w).drawn = s.drawn := rfl

/-! ### `State.powerOn` and `resetStep` -/

@[simp] theorem powerOn_cfg (c : Config) : (State.powerOn c).cfg = c := rfl
@[simp] theorem powerOn_ls (c : Config) : (State.powerOn c).ls = List.replicate c.numLights LightState.initial := rfl
@[simp] theorem powerOn_cmd (c : Config) : (State.powerOn c).cmd = 0 := rfl
@[simp] theorem powerOn_status (c : Config) : (State.powerOn c).status = Status.clear := rfl
@[simp] theorem powerOn_result0 (c : Config) : (State.powerOn c).result0 = 0 := rfl
@[simp] theorem powerOn_qsel (c : Config) : (State.powerOn c).qsel = 0 := rfl
@[simp] theorem powerOn_phase (c : Config) : (State.powerOn c).phase = .idle := rfl
@[simp] theorem powerOn_cmdCh (c : Config) : (State.powerOn c).cmdCh = 0 := rfl
@[simp] theorem powerOn_cmdDp (c : Config) : (State.powerOn c).cmdDp = .off := rfl
@[simp] theorem powerOn_cmdSb (c : Config) : (State.powerOn c).cmdSb = false := rfl
@[simp] theorem powerOn_cmdDb (c : Config) : (State.powerOn c).cmdDb = 0 := rfl
@[simp] theorem powerOn_leg (c : Config) : (State.powerOn c).leg = .power := rfl
@[simp] theorem powerOn_op (c : Config) : (State.powerOn c).op = .on := rfl
@[simp] theorem powerOn_code0 (c : Config) : (State.powerOn c).code0 = 0 := rfl
@[simp] theorem powerOn_code1 (c : Config) : (State.powerOn c).code1 = 0 := rfl
@[simp] theorem powerOn_stepsLeft (c : Config) : (State.powerOn c).stepsLeft = 0 := rfl
@[simp] theorem powerOn_txOut (c : Config) : (State.powerOn c).txOut = none := rfl
@[simp] theorem powerOn_pubOut (c : Config) : (State.powerOn c).pubOut = none := rfl
@[simp] theorem powerOn_delayRun (c : Config) : (State.powerOn c).delayRun = false := rfl
@[simp] theorem powerOn_readData (c : Config) : (State.powerOn c).readData = none := rfl
@[simp] theorem powerOn_schedule (c : Config) : (State.powerOn c).schedule = [] := rfl
@[simp] theorem powerOn_drawn (c : Config) : (State.powerOn c).drawn = 0 := rfl

@[simp] theorem resetStep_cfg (s : State) : (resetStep s).cfg = s.cfg := rfl
@[simp] theorem resetStep_ls (s : State) : (resetStep s).ls = List.replicate s.cfg.numLights LightState.initial := rfl
@[simp] theorem resetStep_cmd (s : State) : (resetStep s).cmd = 0 := rfl
@[simp] theorem resetStep_status (s : State) : (resetStep s).status = Status.clear := rfl
@[simp] theorem resetStep_result0 (s : State) : (resetStep s).result0 = 0 := rfl
@[simp] theorem resetStep_qsel (s : State) : (resetStep s).qsel = 0 := rfl
@[simp] theorem resetStep_phase (s : State) : (resetStep s).phase = .idle := rfl
@[simp] theorem resetStep_cmdCh (s : State) : (resetStep s).cmdCh = 0 := rfl
@[simp] theorem resetStep_cmdDp (s : State) : (resetStep s).cmdDp = .off := rfl
@[simp] theorem resetStep_cmdSb (s : State) : (resetStep s).cmdSb = false := rfl
@[simp] theorem resetStep_cmdDb (s : State) : (resetStep s).cmdDb = 0 := rfl
@[simp] theorem resetStep_leg (s : State) : (resetStep s).leg = .power := rfl
@[simp] theorem resetStep_op (s : State) : (resetStep s).op = .on := rfl
@[simp] theorem resetStep_code0 (s : State) : (resetStep s).code0 = 0 := rfl
@[simp] theorem resetStep_code1 (s : State) : (resetStep s).code1 = 0 := rfl
@[simp] theorem resetStep_stepsLeft (s : State) : (resetStep s).stepsLeft = 0 := rfl
@[simp] theorem resetStep_txOut (s : State) : (resetStep s).txOut = none := rfl
@[simp] theorem resetStep_pubOut (s : State) : (resetStep s).pubOut = none := rfl
@[simp] theorem resetStep_delayRun (s : State) : (resetStep s).delayRun = false := rfl
@[simp] theorem resetStep_readData (s : State) : (resetStep s).readData = none := rfl
@[simp] theorem resetStep_schedule (s : State) : (resetStep s).schedule = s.schedule := rfl
@[simp] theorem resetStep_drawn (s : State) : (resetStep s).drawn = s.drawn := rfl

/-! ### `State.takeEvent` -/

@[simp] theorem takeEvent_cfg (s : State) : s.takeEvent.cfg = s.cfg := by
  unfold State.takeEvent; split <;> rfl
@[simp] theorem takeEvent_ls (s : State) : s.takeEvent.ls = s.ls := by
  unfold State.takeEvent; split <;> rfl
@[simp] theorem takeEvent_cmd (s : State) : s.takeEvent.cmd = s.cmd := by
  unfold State.takeEvent; split <;> rfl
@[simp] theorem takeEvent_status (s : State) : s.takeEvent.status = s.status := by
  unfold State.takeEvent; split <;> rfl
@[simp] theorem takeEvent_result0 (s : State) : s.takeEvent.result0 = s.result0 := by
  unfold State.takeEvent; split <;> rfl
@[simp] theorem takeEvent_qsel (s : State) : s.takeEvent.qsel = s.qsel := by
  unfold State.takeEvent; split <;> rfl
@[simp] theorem takeEvent_phase (s : State) : s.takeEvent.phase = s.phase := by
  unfold State.takeEvent; split <;> rfl
@[simp] theorem takeEvent_cmdCh (s : State) : s.takeEvent.cmdCh = s.cmdCh := by
  unfold State.takeEvent; split <;> rfl
@[simp] theorem takeEvent_cmdDp (s : State) : s.takeEvent.cmdDp = s.cmdDp := by
  unfold State.takeEvent; split <;> rfl
@[simp] theorem takeEvent_cmdSb (s : State) : s.takeEvent.cmdSb = s.cmdSb := by
  unfold State.takeEvent; split <;> rfl
@[simp] theorem takeEvent_cmdDb (s : State) : s.takeEvent.cmdDb = s.cmdDb := by
  unfold State.takeEvent; split <;> rfl
@[simp] theorem takeEvent_leg (s : State) : s.takeEvent.leg = s.leg := by
  unfold State.takeEvent; split <;> rfl
@[simp] theorem takeEvent_op (s : State) : s.takeEvent.op = s.op := by
  unfold State.takeEvent; split <;> rfl
@[simp] theorem takeEvent_code0 (s : State) : s.takeEvent.code0 = s.code0 := by
  unfold State.takeEvent; split <;> rfl
@[simp] theorem takeEvent_code1 (s : State) : s.takeEvent.code1 = s.code1 := by
  unfold State.takeEvent; split <;> rfl
@[simp] theorem takeEvent_stepsLeft (s : State) : s.takeEvent.stepsLeft = s.stepsLeft := by
  unfold State.takeEvent; split <;> rfl
@[simp] theorem takeEvent_txOut (s : State) : s.takeEvent.txOut = s.txOut := by
  unfold State.takeEvent; split <;> rfl
@[simp] theorem takeEvent_pubOut (s : State) : s.takeEvent.pubOut = s.pubOut := by
  unfold State.takeEvent; split <;> rfl
@[simp] theorem takeEvent_delayRun (s : State) : s.takeEvent.delayRun = s.delayRun := by
  unfold State.takeEvent; split <;> rfl
@[simp] theorem takeEvent_readData (s : State) : s.takeEvent.readData = s.readData := by
  unfold State.takeEvent; split <;> rfl

@[simp] theorem takeEvent_cons (s : State) (e : Event) (es : List Event) :
    State.takeEvent { s with schedule := e :: es } = { s with schedule := es } := rfl

@[simp] theorem nextEvent_cons (s : State) (e : Event) (es : List Event) :
    State.nextEvent { s with schedule := e :: es } = e := rfl

/-- Taking an event changes the schedule and its counter alone. -/
theorem takeEvent_eq (s : State) :
    s.takeEvent = { s with schedule := s.takeEvent.schedule, drawn := s.takeEvent.drawn } := by
  unfold State.takeEvent; split <;> rfl

end Sys2Proof.Machine
end

