-- ==== Sys2Proof/Laws/Ops.lean ====
section
/-! SUPPORT. What the shared operations can do: reading and writing a light state, the ROM and its form, the refusal
of a bridged access, and the two outcomes of a host write. -/

namespace Sys2Proof.Machine

open Sys2Proof.Safety

/-! ## Light states -/

@[simp] theorem light_setLight_same (s : State) (ch : Channel) (l : LightState) (h : ch.toNat < s.ls.length) :
    (s.setLight ch l).light ch = l := by
  simp [State.light, State.setLight, h]

@[simp] theorem light_setLight_other (s : State) (ch c : Channel) (l : LightState) (h : c ≠ ch) :
    (s.setLight ch l).light c = s.light c := by
  have : ch.toNat ≠ c.toNat := fun e => h (BitVec.eq_of_toNat_eq e.symm)
  simp [State.light, State.setLight, this]

@[simp] theorem setLight_length (s : State) (ch : Channel) (l : LightState) :
    (s.setLight ch l).ls.length = s.ls.length := by simp [State.setLight]

/-- An entry of the array, or the initial entry. -/
theorem light_mem_or_initial (s : State) (ch : Channel) : s.light ch ∈ s.ls ∨ s.light ch = LightState.initial := by
  unfold State.light
  by_cases h : ch.toNat < s.ls.length
  · left; rw [List.getD_eq_getElem _ _ h]; exact List.getElem_mem h
  · right; exact List.getD_eq_default _ _ (Nat.not_lt.1 h)

theorem light_reachable {s : State} (h : LightsReachable s) (ch : Channel) : Reachable (s.light ch) :=
  (light_mem_or_initial s ch).elim (h _) Or.inl

/-! ## The ROM -/

theorem romRead_mem {c : Config} {i : Nat} (h : rowValid (romRead c i) = true) : romRead c i ∈ c.pulseTable := by
  unfold romRead at *
  by_cases hi : i < c.pulseTable.length
  · rw [List.getD_eq_getElem _ _ hi]; exact List.getElem_mem hi
  · rw [List.getD_eq_default _ _ (Nat.not_lt.1 hi)] at h; exact absurd h (by decide)

/-- The indexer answers only words of the table. -/
theorem lookupRow_mem {c : Config} {ch : Channel} {op : Operation} {sub : Bool} {w : Word}
    (h : lookupRow c ch op sub = some w) : w ∈ c.pulseTable := by
  unfold lookupRow at h
  split at h
  · cases h
  · split at h
    · cases h
    · split at h
      · cases h; exact romRead_mem ‹_›
      · cases h

/-- Every legal choice of arguments, and no other, is what `State.reset` may be built from. -/
theorem built_wf : Config.built.wf = true := by
  unfold Config.built
  split
  · assumption
  · decide

/-- The machine after reset has the ROM's form. -/
theorem reset_rom_wf : Memory.wf State.reset.cfg.numLights State.reset.cfg.pulseTable = true := by
  have h := built_wf
  simp only [Config.wf, Bool.and_eq_true] at h
  exact h.1.2

/-! ## The host port -/

theorem regWrite_cmd (v : Word) (s : State) : regWrite 0 v s = writeCmd v s := rfl

theorem regWrite_qsel (v : Word) (s : State) : regWrite 3 v s = { s with qsel := v.setWidth 8 } := rfl

theorem regWrite_other {k : WordIndex} (h0 : k ≠ 0) (h3 : k ≠ 3) (v : Word) (s : State) : regWrite k v s = s :=
  (if_neg h0).trans (if_neg h3)

/-- A host write accepts a command, sets `OVERRUN`, sets `QSEL`, or does nothing. -/
theorem regWrite_cases (k : WordIndex) (v : Word) (s : State) :
    (s.phase = .idle ∧ regWrite k v s = accept v s) ∨
      (s.phase ≠ .idle ∧ regWrite k v s = { s with status := s.status.overrunSet }) ∨
      (∃ q : Channel, regWrite k v s = { s with qsel := q }) := by
  by_cases h0 : k = 0
  · subst h0
    by_cases hp : s.phase = .idle
    · exact .inl ⟨hp, if_pos hp⟩
    · exact .inr (.inl ⟨hp, if_neg hp⟩)
  · by_cases h3 : k = 3
    · subst h3; exact .inr (.inr ⟨_, rfl⟩)
    · exact .inr (.inr ⟨s.qsel, regWrite_other h0 h3 v s⟩)

/-- A bridged access is a host access or a refusal. -/
theorem busAccess_cases (addr size : Nat) (f : WordIndex → State → State) (s : State) :
    (∃ k : WordIndex, size = 4 ∧ addr = 4 * k.toNat ∧ busAccess addr size f s = .next (f k s)) ∨
      (size = 4 ∧ addr % 4 = 0 ∧ 64 ≤ addr ∧ busAccess addr size f s = .refused .outsideWindow) ∨
      ((size ≠ 4 ∨ addr % 4 ≠ 0) ∧ busAccess addr size f s = .refused .subWordAccess) := by
  unfold busAccess busWord
  by_cases h : size = 4 ∧ addr % 4 = 0
  · by_cases h16 : addr / 4 < 16
    · refine .inl ⟨BitVec.ofNat 4 (addr / 4), h.1, ?_, by simp [h, h16]⟩
      simp; omega
    · exact .inr (.inl ⟨h.1, h.2, by omega, by simp [h, h16]⟩)
  · exact .inr (.inr ⟨by omega, by simp [h]⟩)

end Sys2Proof.Machine
end

