-- ==== Sys2Proof/Laws/PerInstr.lean ====
section
/-! SUPPORT. What holds of every instruction as syntax: its word fits its row of spec/opcode_table.json. -/

namespace Sys2Proof.Laws

/-- The `mask` of an instruction's row of spec/opcode_table.json: the bits the row fixes. -/
def tableMask : Instr → Word
  | .requestState _ _ _ _ => 0xFF00_3F80
  | .lookup _ _ _ => 0xFF00_CEFF
  | .encode _ _ _ => 0xFF00_CEFF

/-- The `match` of that row: the values of those bits. -/
def tableMatch : Instr → Word
  | .requestState _ _ _ _ => 0x1000_0000
  | .lookup _ _ _ => 0x2000_0000
  | .encode _ _ _ => 0x3000_0000

/-- Under the mask of format T a word keeps its opcode alone (30_encoding.md R54, R55). -/
theorem formatT_masked (opcode : BitVec 4) (ch : Channel) (op : Operation) (sub : Bool) :
    formatT opcode ch op sub &&& 0xFF00_CEFF = opcode.setWidth 32 <<< 28 := by
  unfold formatT
  ext i hi
  simp only [BitVec.getElem_and, BitVec.getElem_append]
  interval_cases i <;> simp

namespace FitsTableRow

/-- The encoded word has the row's fixed bits (30_encoding.md R53, R54, R55). -/
def Statement (i : Instr) : Prop := encode i &&& tableMask i = tableMatch i

theorem requestState (ch : Channel) (dp : Power) (sb : Bool) (db : Brightness) :
    Statement (.requestState ch dp sb db) := by
  simp only [Statement, encode, tableMask, tableMatch]
  ext i hi
  simp only [BitVec.getElem_and, BitVec.getElem_append]
  interval_cases i <;> simp

theorem lookup (ch : Channel) (op : Operation) (sub : Bool) : Statement (.lookup ch op sub) :=
  formatT_masked 2 ch op sub

theorem encode (ch : Channel) (op : Operation) (sub : Bool) : Statement (.encode ch op sub) :=
  formatT_masked 3 ch op sub

end FitsTableRow

end Sys2Proof.Laws
end

