-- ==== Sys2Proof/Laws/Request.lean ====
section
/-! SUPPORT. What the parts of a request do, case by case, so that no proof unfolds them: the entry checks, the choice
of a leg and the start of a sequence (43_sequencer.md, section 5). -/

namespace Sys2Proof.Machine

open Sys2Proof.Safety

/-! ## Starting a sequence -/

theorem startOnOff_sends {lg : Leg} {o : Operation} {s : State} {code : Word}
    (h : rowCode s.cfg s.cmdCh o false = some code) :
    startOnOff lg o s =
      issueSend (payload code) onOffRepeat onOffDelay .onOffTx { s with leg := lg, op := o, code0 := code } := by
  obtain ⟨w, hw, hc⟩ := Option.bind_eq_some_iff.1 h
  simp only [startOnOff, hw, hc]

/-- Without a usable row the sequence ends the request, a missing row before a row too long. -/
theorem startOnOff_ends {lg : Leg} {o : Operation} {s : State} (h : rowCode s.cfg s.cmdCh o false = none) :
    startOnOff lg o s =
      finishRequest (if lookupRow s.cfg s.cmdCh o false = none then .unsupportedOperation else .rowTooLong)
        { s with leg := lg, op := o } := by
  unfold startOnOff
  cases hl : lookupRow s.cfg s.cmdCh o false with
  | none => simp
  | some w =>
    simp only [rowCode, hl, Option.bind_some] at h
    simp [h]

theorem startDim_sends {o : Operation} {n : Nat} {s : State} {code0 code1 : Word}
    (h0 : rowCode s.cfg s.cmdCh o false = some code0) (h1 : rowCode s.cfg s.cmdCh o true = some code1) :
    startDim o n s =
      issueSend (payload code0) dimRepeat dimDelay .dimTx0
        { s with
          leg := .brightness
          op := o
          code0 := code0
          code1 := code1
          stepsLeft := BitVec.ofNat 7 n } := by
  obtain ⟨w0, hw0, hc0⟩ := Option.bind_eq_some_iff.1 h0
  obtain ⟨w1, hw1, hc1⟩ := Option.bind_eq_some_iff.1 h1
  simp only [startDim, hw0, hw1, hc0, hc1]

/-- Without two usable rows the sequence ends the request, a missing row of either sub-index before a row too long. -/
theorem startDim_ends {o : Operation} {n : Nat} {s : State}
    (h : rowCode s.cfg s.cmdCh o false = none ∨ rowCode s.cfg s.cmdCh o true = none) :
    startDim o n s =
      finishRequest
        (if lookupRow s.cfg s.cmdCh o false = none ∨ lookupRow s.cfg s.cmdCh o true = none then .unsupportedOperation
          else .rowTooLong)
        { s with leg := .brightness, op := o } := by
  unfold startDim
  cases h0 : lookupRow s.cfg s.cmdCh o false <;> cases h1 : lookupRow s.cfg s.cmdCh o true <;> simp
  next w0 w1 =>
    simp only [rowCode, h0, h1, Option.bind_some] at h
    cases hc0 : encodeRow (rowOf w0) <;> cases hc1 : encodeRow (rowOf w1) <;> simp_all

/-! ## The entry checks and the choice of a leg -/

theorem beginRequest_invalid {s : State} (h : s.cfg.numLights ≤ s.cmdCh.toNat) :
    beginRequest s = finishRequest .invalidChannel s := if_pos h

theorem beginRequest_outOfRange {s : State} (hc : s.cmdCh.toNat < s.cfg.numLights)
    (h : s.cmdSb = true ∧ 64 < s.cmdDb.toNat) : beginRequest s = finishRequest .brightnessOutOfRange s :=
  (if_neg (Nat.not_le.2 hc)).trans (if_pos h)

theorem beginRequest_power {s : State} (hc : s.cmdCh.toNat < s.cfg.numLights)
    (hb : s.cmdSb = true → s.cmdDb.toNat ≤ 64) (h : s.cmdDp ≠ (s.light s.cmdCh).power) :
    beginRequest s = startOnOff .power (powerOperation s.cmdDp) s :=
  (if_neg (Nat.not_le.2 hc)).trans
    ((if_neg fun hs => Nat.not_lt.2 (hb hs.1) hs.2).trans (if_pos h))

theorem beginRequest_plan {s : State} (hc : s.cmdCh.toNat < s.cfg.numLights)
    (hb : s.cmdSb = true → s.cmdDb.toNat ≤ 64) (h : s.cmdDp = (s.light s.cmdCh).power) :
    beginRequest s = planBrightness s :=
  (if_neg (Nat.not_le.2 hc)).trans
    ((if_neg fun hs => Nat.not_lt.2 (hb hs.1) hs.2).trans (if_neg (not_not_intro h)))

theorem planBrightness_done {s : State} (h : s.cmdSb = false ∨ s.cmdDb = (s.light s.cmdCh).brightness) :
    planBrightness s = finishRequest .ok s :=
  if_neg fun hp => h.elim (fun hs => by simp [hs] at hp) hp.2

theorem planBrightness_alreadyOff {s : State} (h1 : s.cmdDb.toNat ≤ 1)
    (h : s.light s.cmdCh = { power := .off, brightness := 0 }) : planBrightness s = finishRequest .ok s := by
  by_cases hp : s.cmdSb = true ∧ s.cmdDb ≠ (s.light s.cmdCh).brightness
  · exact (if_pos hp).trans ((if_pos h1).trans (if_neg (not_not_intro h)))
  · exact if_neg hp

theorem planBrightness_low {s : State} (hs : s.cmdSb = true) (hd : s.cmdDb ≠ (s.light s.cmdCh).brightness)
    (h1 : s.cmdDb.toNat ≤ 1) (h : s.light s.cmdCh ≠ { power := .off, brightness := 0 }) :
    planBrightness s = startOnOff .brightness .off s :=
  (if_pos ⟨hs, hd⟩).trans ((if_pos h1).trans (if_pos h))

/-- The operation of a dim sequence, by the sign of `delta` (42_controller.md R83). -/
theorem dimDelta_operation (db b : Brightness) :
    (if 0 < dimDelta db b then Operation.dimUp else .dimDown) = if b.toNat < db.toNat then .dimUp else .dimDown := by
  by_cases h : b.toNat < db.toNat
  · rw [if_pos h, if_pos]; unfold dimDelta; omega
  · rw [if_neg h, if_neg]; unfold dimDelta; omega

/-- The number of dim steps is the distance between the two brightnesses (42_controller.md R83). -/
theorem dimDelta_natAbs (db b : Brightness) :
    (dimDelta db b).natAbs = if b.toNat < db.toNat then db.toNat - b.toNat else b.toNat - db.toNat := by
  unfold dimDelta; split <;> omega

theorem planBrightness_dim {s : State} (hs : s.cmdSb = true) (hd : s.cmdDb ≠ (s.light s.cmdCh).brightness)
    (h2 : 2 ≤ s.cmdDb.toNat) :
    planBrightness s =
      startDim (if (s.light s.cmdCh).brightness.toNat < s.cmdDb.toNat then .dimUp else .dimDown)
        (dimDelta s.cmdDb (s.light s.cmdCh).brightness).natAbs s := by
  rw [← dimDelta_operation]
  exact (if_pos ⟨hs, hd⟩).trans (if_neg (by omega))

/-- Planning the brightness leg does one of four things: finish, take the Off route, start a dim sequence that sends,
or end without a usable row. -/
theorem planBrightness_cases (s : State) :
    planBrightness s = finishRequest .ok s ∨
      (s.cmdSb = true ∧ s.cmdDb.toNat ≤ 1 ∧ s.cmdDb ≠ (s.light s.cmdCh).brightness ∧
        s.light s.cmdCh ≠ { power := .off, brightness := 0 } ∧
        planBrightness s = startOnOff .brightness .off s) ∨
      (s.cmdSb = true ∧ 2 ≤ s.cmdDb.toNat ∧ s.cmdDb ≠ (s.light s.cmdCh).brightness ∧
        planBrightness s =
          startDim (if (s.light s.cmdCh).brightness.toNat < s.cmdDb.toNat then .dimUp else .dimDown)
            (dimDelta s.cmdDb (s.light s.cmdCh).brightness).natAbs s) := by
  by_cases h : s.cmdSb = true ∧ s.cmdDb ≠ (s.light s.cmdCh).brightness
  · by_cases h1 : s.cmdDb.toNat ≤ 1
    · by_cases h0 : s.light s.cmdCh = { power := .off, brightness := 0 }
      · exact .inl (planBrightness_alreadyOff h1 h0)
      · exact .inr (.inl ⟨h.1, h1, h.2, h0, planBrightness_low h.1 h.2 h1 h0⟩)
    · exact .inr (.inr ⟨h.1, by omega, h.2, planBrightness_dim h.1 h.2 (by omega)⟩)
  · refine .inl (planBrightness_done ?_)
    by_contra hc
    simp only [not_or, Bool.not_eq_false] at hc
    exact h hc

/-- Beginning a request does one of four things. -/
theorem beginRequest_cases (s : State) :
    (s.cfg.numLights ≤ s.cmdCh.toNat ∧ beginRequest s = finishRequest .invalidChannel s) ∨
      (s.cmdCh.toNat < s.cfg.numLights ∧ s.cmdSb = true ∧ 64 < s.cmdDb.toNat ∧
        beginRequest s = finishRequest .brightnessOutOfRange s) ∨
      (s.cmdCh.toNat < s.cfg.numLights ∧ (s.cmdSb = true → s.cmdDb.toNat ≤ 64) ∧
        s.cmdDp ≠ (s.light s.cmdCh).power ∧ beginRequest s = startOnOff .power (powerOperation s.cmdDp) s) ∨
      (s.cmdCh.toNat < s.cfg.numLights ∧ (s.cmdSb = true → s.cmdDb.toNat ≤ 64) ∧
        s.cmdDp = (s.light s.cmdCh).power ∧ beginRequest s = planBrightness s) := by
  by_cases hc : s.cmdCh.toNat < s.cfg.numLights
  · by_cases hb : s.cmdSb = true ∧ 64 < s.cmdDb.toNat
    · exact .inr (.inl ⟨hc, hb.1, hb.2, beginRequest_outOfRange hc hb⟩)
    · have hb' : s.cmdSb = true → s.cmdDb.toNat ≤ 64 := fun h => Nat.not_lt.1 fun h' => hb ⟨h, h'⟩
      by_cases hp : s.cmdDp = (s.light s.cmdCh).power
      · exact .inr (.inr (.inr ⟨hc, hb', hp, beginRequest_plan hc hb' hp⟩))
      · exact .inr (.inr (.inl ⟨hc, hb', hp, beginRequest_power hc hb' hp⟩))
  · exact .inl ⟨Nat.not_lt.1 hc, beginRequest_invalid (Nat.not_lt.1 hc)⟩

end Sys2Proof.Machine
end

