-- ==== Sys2Proof/Laws/Sequencer.lean ====
section
/-! SUPPORT. What each agent's step does, case by case, and what a step of the machine can be (60_exceptions.md R118). -/

namespace Sys2Proof.Machine

open Sys2Proof.Safety

/-! ## The responses -/

theorem onOffResponse_error (s : State) :
    onOffResponse .transmitError s = finishRequest .transmitError { s with txOut := none } := rfl

theorem onOffResponse_ok (s : State) :
    onOffResponse .ok s = commitAndPublish (onOffCommitted s) s.leg { s with txOut := none } := rfl

theorem pubResponse_power {s : State} (h : s.leg = .power) (resp : PubResponse) :
    pubResponse resp s = planBrightness { s with pubOut := none, status := s.status.published resp } := by
  unfold pubResponse; rw [h]

theorem pubResponse_brightness {s : State} (h : s.leg = .brightness) (resp : PubResponse) :
    pubResponse resp s = finishRequest .ok { s with pubOut := none, status := s.status.published resp } := by
  unfold pubResponse; rw [h]

theorem dimDelayExpiry_more {s : State} (h : 0 < s.stepsLeft.toNat) :
    dimDelayExpiry s = issueSend (payload s.code0) dimRepeat dimDelay .dimTx0 { s with delayRun := false } := if_pos h

theorem dimDelayExpiry_last {s : State} (h : s.stepsLeft = 0) :
    dimDelayExpiry s =
      commitAndPublish { power := (s.light s.cmdCh).power, brightness := s.cmdDb } .brightness
        { s with delayRun := false } := by
  refine if_neg ?_
  simp [h]

/-! ## When an agent's step is enabled -/

theorem txPortStep_none {s : State} (h : s.txOut = none) (resp : TxResponse) : txPortStep resp s = s := by
  unfold txPortStep; rw [h]

theorem txPortStep_onOffTx {s : State} {r : TxRequest} (h : s.txOut = some r) (hp : s.phase = .onOffTx)
    (resp : TxResponse) : txPortStep resp s = onOffResponse resp s := by
  unfold txPortStep; rw [h, hp]

theorem txPortStep_dimTx0 {s : State} {r : TxRequest} (h : s.txOut = some r) (hp : s.phase = .dimTx0)
    (resp : TxResponse) : txPortStep resp s = dimTx0Response resp s := by
  unfold txPortStep; rw [h, hp]

theorem txPortStep_dimTx1 {s : State} {r : TxRequest} (h : s.txOut = some r) (hp : s.phase = .dimTx1)
    (resp : TxResponse) : txPortStep resp s = dimTx1Response resp s := by
  unfold txPortStep; rw [h, hp]

/-- The port's step is one of three responses, or the response is discarded. -/
theorem txPortStep_cases (resp : TxResponse) (s : State) :
    (s.txOut ≠ none ∧ s.phase = .onOffTx ∧ txPortStep resp s = onOffResponse resp s) ∨
      (s.txOut ≠ none ∧ s.phase = .dimTx0 ∧ txPortStep resp s = dimTx0Response resp s) ∨
      (s.txOut ≠ none ∧ s.phase = .dimTx1 ∧ txPortStep resp s = dimTx1Response resp s) ∨
      (¬ (s.txOut ≠ none ∧ Sending s) ∧ txPortStep resp s = s) := by
  cases h : s.txOut with
  | none => exact .inr (.inr (.inr ⟨by simp, txPortStep_none h resp⟩))
  | some r =>
    cases hp : s.phase with
    | onOffTx => exact .inl ⟨by simp, rfl, txPortStep_onOffTx h hp resp⟩
    | dimTx0 => exact .inr (.inl ⟨by simp, rfl, txPortStep_dimTx0 h hp resp⟩)
    | dimTx1 => exact .inr (.inr (.inl ⟨by simp, rfl, txPortStep_dimTx1 h hp resp⟩))
    | _ => exact .inr (.inr (.inr ⟨by simp [hp], by unfold txPortStep; rw [h, hp]⟩))

theorem sinkStep_none {s : State} (h : s.pubOut = none) (resp : PubResponse) : sinkStep resp s = s := by
  unfold sinkStep; rw [h]

theorem sinkStep_pub {s : State} {u : StateUpdate} (h : s.pubOut = some u) (hp : s.phase = .pub) (resp : PubResponse) :
    sinkStep resp s = pubResponse resp s := by
  unfold sinkStep; rw [h, hp]

/-- The sink's step is the `PUB` step, or the response is discarded. -/
theorem sinkStep_cases (resp : PubResponse) (s : State) :
    (s.pubOut ≠ none ∧ s.phase = .pub ∧ sinkStep resp s = pubResponse resp s) ∨
      (¬ (s.pubOut ≠ none ∧ s.phase = .pub) ∧ sinkStep resp s = s) := by
  cases h : s.pubOut with
  | none => exact .inr ⟨by simp, sinkStep_none h resp⟩
  | some u =>
    cases hp : s.phase with
    | pub => exact .inl ⟨by simp, rfl, sinkStep_pub h hp resp⟩
    | _ => exact .inr ⟨by simp, by unfold sinkStep; rw [h, hp]⟩

theorem sequencerStep_exec {s : State} {i : Instr} (hp : s.phase = .exec) (h : decode s.cmd = .ok i) :
    sequencerStep s = exec i s := by
  unfold sequencerStep; rw [hp, h]

theorem sequencerStep_illegal {s : State} {e : DecodeError} (hp : s.phase = .exec) (h : decode s.cmd = .error e) :
    sequencerStep s = .next (illegalCommand s) := by
  unfold sequencerStep; rw [hp, h]

theorem sequencerStep_dimDelay {s : State} (hp : s.phase = .dimDelay) :
    sequencerStep s = .next (dimDelayExpiry s) := by
  unfold sequencerStep; rw [hp]

theorem sequencerStep_other {s : State} (h : s.phase ≠ .exec) (h' : s.phase ≠ .dimDelay) :
    sequencerStep s = .next s := by
  unfold sequencerStep
  cases hp : s.phase <;> simp_all

/-! ## A step of the machine -/

/-- A step is the next agent's, on the state with the choice taken. -/
theorem step_eq (s : State) {e : Event} (h : s.nextEvent = e) : step s = perform e s.takeEvent := by
  unfold step; rw [h]

/-- The schedule's own choice does not matter to what a step reads. -/
theorem step_cons (s : State) (e : Event) :
    step { s with schedule := e :: s.schedule } = perform e s := rfl

@[simp] theorem takeEvent_light (s : State) (ch : Channel) : s.takeEvent.light ch = s.light ch := by
  simp [State.light]

@[simp] theorem takeEvent_snapshot (s : State) (ch : Channel) : s.takeEvent.snapshot ch = s.snapshot ch := by
  simp [State.snapshot]

end Sys2Proof.Machine
end

