-- ==== Sys2Proof/Laws/RequestProcedure.lean ====
section
/-! SUPPORT. How the phase machine is driven: it stops when idle, and else takes the one step that moves it on. And
what the sequences of the pseudocode do, case by case. -/

namespace Sys2Proof.Safety

open Sys2Proof.Machine

theorem drive_idle (answers : Nat → Bool) (n : Nat) {s : State} (h : s.phase = .idle) (ws : List Wait) :
    drive answers n s ws = (s, ws) := by
  cases n with
  | zero => rfl
  | succ n => exact if_pos h

theorem drive_step (answers : Nat → Bool) (n : Nat) {s t : State} {ws : List Wait} (h : s.phase ≠ .idle)
    (ht : perform (movingEvent (answers ws.length) s) s = .next t) :
    drive answers (n + 1) s ws = drive answers n t (ws ++ outstanding s) := by
  have hs : step { s with schedule := movingEvent (answers ws.length) s :: s.schedule } = .next t := ht
  rw [drive, if_neg h, hs]

/-- A run with one more wait gone through. -/
abbrev Run.waited (r : Run) (w : Wait) : Run := { r with waits := r.waits ++ [w] }

/-- The send of a code word's payload with repeat `n`. -/
abbrev sendOf (code : Word) (n : Nat) : Wait := .send { payload := payload code, repeatCount := n, delayBetween := 0 }

/-- An On/Off sequence is one send, or ends without a usable row. -/
theorem onOffSequence_eq (c : Config) (answers : Nat → Bool) (ch : Channel) (o : Operation) (r : Run) :
    onOffSequence c answers ch o r =
      match rowCode c ch o false with
      | some code => (r.waited (sendOf code 4), if answers r.waits.length then none else some .transmitError)
      | none => (r, some (if lookupRow c ch o false = none then .unsupportedOperation else .rowTooLong)) := by
  unfold onOffSequence rowCode
  cases hl : lookupRow c ch o false with
  | none => simp
  | some w =>
    cases he : encodeRow (rowOf w) with
    | none => simp [he]
    | some code => by_cases hb : answers r.waits.length = true <;> simp [he, sendCode, await, hb]

/-- A dim sequence is its loop, or ends without two usable rows. -/
theorem dimSequence_eq (c : Config) (answers : Nat → Bool) (ch : Channel) (o : Operation) (n : Nat) (r : Run) :
    dimSequence c answers ch o n r =
      match rowCode c ch o false, rowCode c ch o true with
      | some code0, some code1 => dimLoop answers code0 code1 n r
      | _, _ =>
        (r, some
          (if lookupRow c ch o false = none ∨ lookupRow c ch o true = none then .unsupportedOperation
            else .rowTooLong)) := by
  unfold dimSequence rowCode
  cases hl : lookupRow c ch o false with
  | none => simp
  | some w =>
    cases hl1 : lookupRow c ch o true with
    | none => simp
    | some w1 =>
      cases he : encodeRow (rowOf w) with
      | none => simp [he]
      | some code => cases he1 : encodeRow (rowOf w1) <;> simp [he, he1]

theorem dimLoop_error0 {answers : Nat → Bool} {code0 code1 : Word} {k : Nat} {r : Run}
    (h : answers r.waits.length = false) :
    dimLoop answers code0 code1 (k + 1) r = (r.waited (sendOf code0 1), some .transmitError) := by
  simp only [dimLoop, sendCode, await, h]; rfl

theorem dimLoop_error1 {answers : Nat → Bool} {code0 code1 : Word} {k : Nat} {r : Run}
    (h : answers r.waits.length = true) (h1 : answers (r.waited (sendOf code0 1)).waits.length = false) :
    dimLoop answers code0 code1 (k + 1) r =
      ((r.waited (sendOf code0 1)).waited (sendOf code1 1), some .transmitError) := by
  simp only [dimLoop, sendCode, await, h, h1]; rfl

theorem dimLoop_ok {answers : Nat → Bool} {code0 code1 : Word} {k : Nat} {r : Run}
    (h : answers r.waits.length = true) (h1 : answers (r.waited (sendOf code0 1)).waits.length = true) :
    dimLoop answers code0 code1 (k + 1) r =
      dimLoop answers code0 code1 k (((r.waited (sendOf code0 1)).waited (sendOf code1 1)).waited .delay) := by
  simp only [dimLoop, sendCode, await, h, h1]; rfl

end Sys2Proof.Safety
end

