-- ==== Sys2Proof/Tests/Slice0.lean ====
section
/-! SUPPORT. The model against the vectors of 95_test_vectors.md, and a witness for the hypotheses of each statement of
Certificates/Slice0/Obligations.lean. Expected values are the spec's; each test names its vector. -/

namespace Sys2Proof.Tests

open Sys2Proof.Machine Sys2Proof.Safety

/-! ## Fixtures -/

/-- TEST_ROM (95_test_vectors.md, section 2). -/
def rom : Config :=
  { numLights := 2
    pulseTable :=
      [0xC431_2000, 0xC432_1000, 0xA220_0000, 0xA230_0000, 0xA320_0000, 0xA310_0000] ++
        [0xC123_4000, 0x9D00_0000, 0x9E00_0000, 0x9100_0000, 0x0000_0000, 0x9500_0000]
    dimStepDelay := 1 }

def off (b : Brightness) : LightState := { power := .off, brightness := b }

def on (b : Brightness) : LightState := { power := .on, brightness := b }

/-- An idle block whose next step is `e`. -/
def idle (l0 l1 : LightState) (e : Event) : State :=
  { State.powerOn rom with ls := [l0, l1], schedule := [e] }

/-- A block that has accepted the command word `w` and whose next step is the sequencer's. -/
def fetched (l0 l1 : LightState) (w : Word) : State :=
  { idle l0 l1 .sequencer with cmd := w, phase := .exec }

/-- Q1 waiting for the port: `REQ 0, ON` from `(Off, 0)`. -/
def sendingOn (e : Event) : State :=
  { idle (off 0) (off 0) e with
    cmd := 0x1000_8000
    cmdDp := .on
    code0 := 0x4AA5_4940
    txOut := some { payload := payload 0x4AA5_4940, repeatCount := 4, delayBetween := 0 }
    phase := .onOffTx }

/-- Q24 waiting for the port: `REQ 0, ON, 1` from `(On, 64)`. -/
def sendingLow (e : Event) : State :=
  { idle (on 64) (off 0) e with
    cmd := 0x1000_C001
    cmdDp := .on
    cmdSb := true
    cmdDb := 1
    leg := .brightness
    op := .off
    code0 := 0x4AA5_4A40
    txOut := some { payload := payload 0x4AA5_4A40, repeatCount := 4, delayBetween := 0 }
    phase := .onOffTx }

/-- Q8 in its dim sequence: `REQ 0, ON, 62` from `(On, 60)`, in phase `p` with `n` steps left and `tx` outstanding. -/
def dimming (p : Phase) (n : BitVec 7) (tx : Option TxRequest) (e : Event) : State :=
  { idle (on 60) (off 0) e with
    cmd := 0x1000_C03E
    cmdDp := .on
    cmdSb := true
    cmdDb := 62
    leg := .brightness
    op := .dimUp
    code0 := 0x4A50_0000
    code1 := 0x4A54_0000
    stepsLeft := n
    txOut := tx
    delayRun := p == .dimDelay
    phase := p }

def dimSend (code : Word) : Option TxRequest :=
  some { payload := payload code, repeatCount := 1, delayBetween := 0 }

def dimming0 (e : Event) : State := dimming .dimTx0 2 (dimSend 0x4A50_0000) e

def dimming1 (e : Event) : State := dimming .dimTx1 2 (dimSend 0x4A54_0000) e

/-- Q1 waiting for the sink after its commit. -/
def publishing (e : Event) : State :=
  { idle (on 64) (off 0) e with
    cmd := 0x1000_8000
    status := { Status.clear with pLeg := true }
    cmdDp := .on
    code0 := 0x4AA5_4940
    pubOut := some { channel := 0, power := .on, brightness := 64 }
    phase := .pub }

/-- Q7's end, waiting for the sink after its brightness commit. -/
def publishingDim (e : Event) : State :=
  { idle (on 60) (off 0) e with
    cmd := 0x1000_C03C
    status := { Status.clear with bLeg := true }
    cmdDp := .on
    cmdSb := true
    cmdDb := 60
    leg := .brightness
    op := .dimDown
    code0 := 0x4A94_0000
    code1 := 0x4A90_0000
    pubOut := some { channel := 0, power := .on, brightness := 60 }
    phase := .pub }

/-! ## Row words and images (95_test_vectors.md, section 3.1) -/

theorem test_rowWordWf_accepts :
    ([0x0000_0000, 0xC431_2000, 0xF111_1111, 0x9F00_0000].all rowWordWf) = true := by decide

/-- W4: configured, with no counts. -/
theorem test_rowWordWf_refuses_noCounts : rowWordWf 0x8000_0000 = false := by decide

/-- W5: a count of 0. -/
theorem test_rowWordWf_refuses_zeroCount : rowWordWf 0x9000_0000 = false := by decide

/-- W6: a count at or above `LEN`. -/
theorem test_rowWordWf_refuses_extraCount : rowWordWf 0x9100_0001 = false := by decide

/-- W7: bits set in an empty slot. -/
theorem test_rowWordWf_refuses_dirtyEmpty : rowWordWf 0x0100_0000 = false := by decide

theorem test_image_wf : rom.wf = true := by decide

/-- R51: an image of the wrong length. -/
theorem test_image_refuses_length : Memory.wf 2 (rom.pulseTable.drop 1) = false := by decide

/-- R51: an image with one ill-formed word. -/
theorem test_image_refuses_word : Memory.wf 2 (rom.pulseTable.set 10 0x8000_0000) = false := by decide

/-- R7: more than 256 channels. -/
theorem test_config_refuses_numLights :
    ({ rom with numLights := 257, pulseTable := List.replicate 1542 0 } : Config).wf = false := by decide

/-- R7: no delay. -/
theorem test_config_refuses_delay : ({ rom with dimStepDelay := 0 } : Config).wf = false := by decide

theorem test_rowOf_golden : rowOf 0xC431_2000 = [4, 3, 1, 2] ∧ rowWord [4, 3, 1, 2] = 0xC431_2000 := by decide

theorem test_emptyRowWord : emptyRowWord = 0 ∧ rowWordWf emptyRowWord = true := by decide

/-! ## Command words (95_test_vectors.md, section 3.4; words written out from 30_encoding.md R53, R54) -/

/-- Format R, bit by bit: opcode 1, four zeros, `CH` = 129, `DP` = 1, `SB` = 1, seven zeros, `DB` = 70. -/
theorem test_decode_requestState :
    decode 0b0001_0000_10000001_1_1_0000000_1000110#32 = .ok (.requestState 129 .on true 70) := by decide

/-- K8: `DB` may hold anything when `SB` is 0. -/
theorem test_decode_requestState_noBrightness : decode 0x1000_007F = .ok (.requestState 0 .off false 127) := by
  decide

/-- Format T, bit by bit: opcode 2, four zeros, `CH` = 129, two zeros, `OP` = 2, three zeros, `SUB` = 1, eight
zeros. -/
theorem test_decode_lookup :
    decode 0b0010_0000_10000001_00_10_000_1_00000000#32 = .ok (.lookup 129 .dimUp true) := by decide

theorem test_decode_encode :
    decode 0b0011_0000_11111111_00_11_000_0_00000000#32 = .ok (.encode 255 .dimDown false) := by decide

/-- The same words from the encoder. -/
theorem test_encode_words :
    encode (.requestState 129 .on true 70) = 0x1081_C046 ∧ encode (.lookup 129 .dimUp true) = 0x2081_2100 ∧
      encode (.encode 255 .dimDown false) = 0x30FF_3000 := by decide

/-- K1 to K3: reserved opcodes. -/
theorem test_decode_reservedOpcode :
    decode 0x0000_0000 = .error .reservedOpcode ∧ decode 0x4000_0000 = .error .reservedOpcode ∧
      decode 0xF000_0000 = .error .reservedOpcode := by decide

/-- K4 to K7: reserved bits. -/
theorem test_decode_reservedBit :
    decode 0x2000_0001 = .error .reservedBit ∧ decode 0x2001_5000 = .error .reservedBit ∧
      decode 0x2100_0000 = .error .reservedBit ∧ decode 0x1000_C0C0 = .error .reservedBit := by decide

theorem test_decodeTableWord :
    decodeTableWord 32 0x2000_2100 = some (.lookup 0 .dimUp true) ∧ decodeTableWord 32 0x4000_0000 = none := by
  decide

/-! ## The encoder and the payload (95_test_vectors.md, sections 1 and 3.3) -/

/-- X10 (the source's golden vector), X17, X18, X20. -/
theorem test_encodeRow_accepts :
    encodeRow [4, 3, 1, 2] = some 0x4AA5_4940 ∧ encodeRow [4, 1, 1, 1, 1, 1, 1] = some 0x4AA4_9248 ∧
      encodeRow [7, 6] = some 0x4AAA_9554 ∧ encodeRow [1, 1, 1, 1, 1, 1, 1] = some 0x4924_9200 := by
  decide +kernel

/-- X21, X23, X24, X25. -/
theorem test_encodeRow_tooLong :
    encodeRow [14] = none ∧ encodeRow [7, 7] = none ∧ encodeRow [5, 1, 1, 1, 1, 1, 1] = none ∧
      encodeRow [2, 2, 2, 2, 2, 2, 2] = none := by decide

/-- E1: the golden payload. -/
theorem test_payload_golden :
    payload 0x4AA5_4940 = [0x54, 0x2A, 0xAA, 0xA5, 0x55, 0x55, 0x4A, 0xA5, 0x49, 0x40, 0x00] := by decide

/-! ## Each command's step -/

/-- L3: the last slot of the last channel. -/
theorem test_lookup_hit :
    let s := lookupCommand 1 .dimDown true (fetched (off 0) (off 0) 0x2001_3100);
    s.result0 = 0x9500_0000 ∧ regRead 1 s = 0x0000_0002 ∧ s.phase = .idle := by decide

/-- L5, L8: no sub-index 1 for On, no such channel. -/
theorem test_lookup_miss :
    let s := fetched (off 0) (off 0) 0x2000_0100;
    regRead 1 (lookupCommand 0 .on true s) = 0x0000_0062 ∧ (lookupCommand 2 .on false s).result0 = 0 := by decide

/-- N2. -/
theorem test_encode_command :
    let s := encodeCommand 1 .off false (fetched (off 0) (off 0) 0x3001_1000);
    s.result0 = 0x4AAA_AAA8 ∧ regRead 1 s = 0x0000_0002 := by decide +kernel

/-- N4, N5: too long, missing. -/
theorem test_encode_command_errors :
    let s := fetched (off 0) (off 0) 0x3001_2000;
    regRead 1 (encodeCommand 1 .dimUp false s) = 0x0000_0042 ∧
      regRead 1 (encodeCommand 1 .dimDown false s) = 0x0000_0062 := by decide

/-- Q1: the first step of `REQ 0, ON` is exactly the send of the golden payload. -/
theorem test_requestState_sends :
    execRequestState 0 .on false 0 (fetched (off 0) (off 0) 0x1000_8000) = .next (sendingOn .sequencer) := by
  have : beginRequest (latchRequest 0 .on false 0 (fetched (off 0) (off 0) 0x1000_8000)) = sendingOn .sequencer := by
    decide +kernel
  exact congrArg _ this

/-- P2 line 5's second leg, on a light already on: the missing DimDown row of channel 1. -/
theorem test_requestState_missingRow :
    let s := beginRequest (latchRequest 1 .on true 40 (fetched (off 0) (on 64) 0x1001_C028));
    regRead 1 s = 0x0000_0022 ∧ s.result0 = 0x8000_0140 ∧ s.txOut = none := by decide +kernel

/-! ## The sequencer's other steps -/

/-- Q1's commit. -/
theorem test_onOff_commit :
    let s := txPortStep .ok (sendingOn .reset);
    s.ls = [on 64, off 0] ∧ s.pubOut = some { channel := 0, power := .on, brightness := 64 } ∧
      regRead 1 s = 0x0000_0401 := by decide

/-- Q24's commit: the low-brightness route ends at `(Off, 0)`. -/
theorem test_low_commit :
    let s := txPortStep .ok (sendingLow .reset);
    s.ls = [off 0, off 0] ∧ s.pubOut = some { channel := 0, power := .off, brightness := 0 } ∧
      regRead 1 s = 0x0000_0801 := by decide

/-- Q8: row 1 after row 0, and the delay after row 1. -/
theorem test_dim_sends :
    (txPortStep .ok (dimming0 .reset)).txOut = dimSend 0x4A54_0000 ∧
      (txPortStep .ok (dimming1 .reset)).stepsLeft = 1 ∧ (txPortStep .ok (dimming1 .reset)).phase = .dimDelay := by
  decide

/-- Q8: the last delay commits. -/
theorem test_dim_commit : (dimDelayExpiry (dimming .dimDelay 0 none .reset)).ls = [on 62, off 0] := by decide

/-- Q22's answer in the middle of a dim: nothing is committed. -/
theorem test_dim_error :
    let s := txPortStep .transmitError (dimming0 .reset);
    regRead 1 s = 0x0000_0052 ∧ s.ls = [on 60, off 0] ∧ s.result0 = 0x8000_013C := by decide

/-- Q23: a failed publish. -/
theorem test_publish_error : regRead 1 (sinkStep .publishError (publishing .reset)) = 0x0000_0502 := by decide

/-! ## The host registers (95_test_vectors.md, section 3.6) and reset -/

/-- H1. -/
theorem test_reads_after_reset :
    let s := State.powerOn rom;
    regRead 4 s = 0x8000_0000 ∧ regRead 5 s = 0x0040_0002 ∧
      ([0, 1, 2, 3, 6, 7, 8, 9, 10, 11, 12, 13, 14, 15].all fun k => regRead k s == 0) = true := by decide

/-- H2. -/
theorem test_qsel :
    let s := regWrite 3 0x0000_0105 (State.powerOn rom);
    regRead 3 s = 0x0000_0005 ∧ regRead 4 s = 0 := by decide

/-- H4 to H6. -/
theorem test_ignored_writes :
    regWrite 1 0xFFFF_FFFF (State.powerOn rom) = State.powerOn rom ∧
      regWrite 9 0x1234_5678 (State.powerOn rom) = State.powerOn rom ∧
      regWrite 5 0 (State.powerOn rom) = State.powerOn rom := by decide

/-- H7: the refused write. -/
theorem test_overrun :
    let s := regWrite 0 0x1000_0000 (sendingOn .reset);
    regRead 1 s = 0x0000_0201 ∧ regRead 0 s = 0x1000_8000 := by decide

/-- H8. -/
theorem test_accept :
    let s := regWrite 0 0x1000_8000 (State.powerOn rom);
    regRead 1 s = 0x0000_0001 ∧ regRead 2 s = 0 ∧ s.phase = .exec := by decide

/-- H9 and K1. -/
theorem test_illegal :
    let s := illegalCommand (fetched (off 0) (off 0) 0);
    regRead 1 s = 0x0000_0072 ∧ regRead 0 s = 0 ∧ s.result0 = 0 := by decide

/-- H10. -/
theorem test_param_256 : paramWord { rom with numLights := 256 } = 0x0040_0100 := by decide

/-- T2: reset in the delay after the first step. -/
theorem test_reset_during_dim :
    resetStep (dimming .dimDelay 1 none .reset) = idle (off 0) (off 0) .reset := by decide

/-- 20_memory.md R40: word 4 of the window through a bridge, and the three refusals' boundaries. -/
theorem test_busWord :
    busWord 16 4 = .ok 4 ∧ busWord 60 4 = .ok 15 ∧ busWord 64 4 = .error .outsideWindow ∧
      busWord 18 4 = .error .subWordAccess ∧ busWord 16 2 = .error .subWordAccess := by decide

/-- A word of each row of the opcode table runs as the first command after reset. -/
theorem test_first_command_runs :
    (∃ t, step (State.reset.withFetchWord 32 0x1000_0000) = .next t) ∧
      (∃ t, step (State.reset.withFetchWord 32 0x2000_0000) = .next t) ∧
      ∃ t, step (State.reset.withFetchWord 32 0x3000_0000) = .next t :=
  ⟨⟨_, rfl⟩, ⟨_, rfl⟩, ⟨_, rfl⟩⟩

/-- 30_encoding.md R59 and R60: `REQ 0, ON, 70` and `LOOKUP 0, DIMUP, 1`. -/
theorem test_expandLine :
    expandLine (.reqBrightness 0 .on 70) = [.hostWrite 0 0x1000_C046] ∧
      expandLine (.lookup 0 .dimUp true) = [.hostWrite 0 0x2000_2100] ∧
      expandLine (.poll 1) = [.hostRead 1, .hostRead 1] := by decide

/-! ## Witnesses: states and operands that meet the hypotheses of the statements

Each is named after its statement. `Inv` is shown at one state of every phase. -/

theorem test_inv_idle : Inv (idle (off 0) (on 64) .reset) :=
  ⟨by decide, by decide, by decide, by decide, by decide, by decide, by decide, by decide, by decide⟩

theorem test_inv_exec : Inv (fetched (on 64) (off 40) 0x1000_C03C) :=
  ⟨by decide, by decide, by decide, by decide, by decide, by decide, by decide, by decide, by decide⟩

theorem test_inv_onOffTx : Inv (sendingOn (.txPort .ok)) :=
  ⟨by decide, by decide, by decide, by decide, by decide +kernel, by decide, by decide, by decide, by decide⟩

theorem test_inv_onOffTx_low : Inv (sendingLow (.txPort .ok)) :=
  ⟨by decide, by decide, by decide, by decide, by decide +kernel, by decide, by decide, by decide, by decide⟩

theorem test_inv_dimTx0 : Inv (dimming0 (.txPort .ok)) :=
  ⟨by decide, by decide, by decide, by decide, by decide +kernel, by decide, by decide, by decide, by decide⟩

theorem test_inv_dimTx1 : Inv (dimming1 (.txPort .ok)) :=
  ⟨by decide, by decide, by decide, by decide, by decide +kernel, by decide, by decide, by decide, by decide⟩

theorem test_inv_dimDelay : Inv (dimming .dimDelay 0 none .sequencer) :=
  ⟨by decide, by decide, by decide, by decide, by decide +kernel, by decide, by decide, by decide, by decide⟩

theorem test_inv_pub : Inv (publishing (.sink .ok)) :=
  ⟨by decide, by decide, by decide, by decide, by decide, by decide, by decide, by decide, by decide⟩

/-- EncodeOfDecodedWordIsTheWord, and both clauses of DecodedOperandsAreTheFields at the fields' largest values. -/
theorem test_witness_decode :
    decode 0x10FF_C07F = .ok (.requestState 255 .on true 127) ∧ decode 0x20FF_3100 = .ok (.lookup 255 .dimDown true) ∧
      decode 0x30FF_3100 = .ok (.encode 255 .dimDown true) := by decide

/-- ResetMeetsInvariant: legal parameters, with lights and with none. -/
theorem test_witness_ResetMeetsInvariant : rom.wf = true ∧ Config.smallest.wf = true := by decide

/-- RowDirectiveReadsBack, at both lengths' bounds. -/
theorem test_witness_RowDirectiveReadsBack :
    (1 ≤ [15#4].length ∧ [15#4].length ≤ 7 ∧ ∀ c ∈ [15#4], c ≠ 0) ∧
      (1 ≤ [1#4, 2, 3, 4, 5, 6, 15].length ∧ [1#4, 2, 3, 4, 5, 6, 15].length ≤ 7 ∧
        ∀ c ∈ [1#4, 2, 3, 4, 5, 6, 15], c ≠ 0) := by decide

/-- WellFormedRowWordIsItsRow: W8 and W3, and W2's first and last counts. -/
theorem test_witness_WellFormedRowWordIsItsRow :
    (rowOf 0xC431_2000)[0]? = some 4 ∧ (rowOf 0xC431_2000)[3]? = some 2 ∧ (rowWordWf 0x9F00_0000 = true ∧ (0x9F00_0000 : Word) ≠ 0) ∧
      (rowWordWf 0xF111_1111 = true ∧ (0xF111_1111 : Word) ≠ 0) := by decide

/-- ConstructionNeedsWellFormedImage: the ranges' bounds, and an image for each clause. -/
theorem test_witness_ConstructionNeedsWellFormedImage :
    (rom.numLights ≤ 256 ∧ 0 < rom.dimStepDelay ∧ rom.wf = true) ∧
      (let c : Config := { numLights := 256, pulseTable := List.replicate 1536 0, dimStepDelay := 1 };
        c.numLights ≤ 256 ∧ c.pulseTable.length = 6 * c.numLights ∧ ∀ w ∈ c.pulseTable, w = 0) ∧
      (let c : Config := { numLights := 0, pulseTable := [0], dimStepDelay := 1 };
        c.numLights ≤ 256 ∧ c.pulseTable.length ≠ 6 * c.numLights) := by
  refine ⟨by decide, ⟨Nat.le_refl _, List.length_replicate, fun w h => (List.mem_replicate.1 h).2⟩, by decide⟩

/-- LookupHitsExactlyConfiguredSlots: its second clause at the ROM's ends, and its third at the last channel's last
slot. -/
theorem test_witness_LookupHitsExactlyConfiguredSlots :
    (rom.pulseTable[0]? = some 0xC431_2000 ∧ rom.pulseTable[11]? = some 0x9500_0000) ∧
      (Operation.dimDown, true, 5) ∈ [(Operation.dimDown, true, 5)] ∧
      6 * (255 : Channel).toNat + 5 = 6 * (255 : Channel).toNat + 5 := by decide

theorem test_witness_LookupNeverAliasesRows :
    (slotOf .on false = some 0 ∧ slotOf .on false = some 0 ∧ romIndex 3 0 = romIndex 3 0) ∧
      (slotOf .on false = some 0 ∧ slotOf .dimDown true = some 5 ∧ (255 : Channel).toNat < 256) := by decide

/-- EncodedBitsAreThePulses: where its clauses meet, at the widths 28 and 29. -/
theorem test_witness_EncodedBitsAreThePulses :
    ([7#4, 6].map fun c => 2 * c.toNat + 1).sum = 28 ∧ ([14#4].map fun c => 2 * c.toNat + 1).sum = 29 := by decide

/-- EncodedWordShape and EncodeIsInjective, at the widest row and the narrowest. -/
theorem test_witness_encodeRow :
    ([7, 6] ≠ ([] : List PulseCount) ∧ (∀ c ∈ [7#4, 6], c ≠ 0) ∧ encodeRow [7, 6] = some 0x4AAA_9554) ∧
      ([1] ≠ ([] : List PulseCount) ∧ (∀ c ∈ [1#4], c ≠ 0) ∧ encodeRow [1] = some 0x4800_0000) := by decide +kernel

/-- InvalidChannelEndsRequest, at the first channel that does not exist and at the last number. -/
theorem test_witness_InvalidChannelEndsRequest :
    let s := fetched (off 0) (off 0) 0x1002_8000;
    s.cfg.numLights ≤ (2 : Channel).toNat ∧ s.cfg.numLights ≤ (255 : Channel).toNat := by decide

theorem test_witness_BrightnessOutOfRangeEndsRequest :
    let s := fetched (off 0) (off 0) 0x1000_C046;
    ((1 : Channel).toNat < s.cfg.numLights ∧ 64 < (65 : Brightness).toNat) ∧
      ((0 : Channel).toNat < s.cfg.numLights ∧ 64 < (127 : Brightness).toNat) := by decide

/-- SatisfiedRequestDoesNothing: Q2, Q11 and Q26, one for each alternative, the last at brightness 1. -/
theorem test_witness_SatisfiedRequestDoesNothing :
    let s := fetched (on 64) (off 0) 0x1000_8000;
    ((0 : Channel).toNat < s.cfg.numLights ∧ (1 : Channel).toNat < s.cfg.numLights) ∧
      ((64 : Brightness).toNat ≤ 64 ∧ 64 = (s.light 0).brightness) ∧
      ((1 : Brightness).toNat ≤ 1 ∧ s.light 1 = { power := .off, brightness := 0 }) := by decide

/-- PowerChangeSendsOneBurst: Q1 and Q3, with a brightness of 64. -/
theorem test_witness_PowerChangeSendsOneBurst :
    let s := fetched (off 0) (on 64) 0x1000_C040;
    ((0 : Channel).toNat < s.cfg.numLights ∧ (true = true → (64 : Brightness).toNat ≤ 64) ∧
        Power.on ≠ (s.light 0).power ∧ rowCode s.cfg 0 .on false = some 0x4AA5_4940) ∧
      ((1 : Channel).toNat < s.cfg.numLights ∧ (false = true → (127 : Brightness).toNat ≤ 64) ∧
        Power.off ≠ (s.light 1).power ∧ rowCode s.cfg 1 .off false = some 0x4AAA_AAA8) := by decide +kernel

/-- A block like TEST_ROM's with no On row and an Off row too long in channel 0. -/
def brokenRom : State :=
  { fetched (off 0) (on 64) 0x1000_8000 with
    cfg := { rom with pulseTable := 0 :: 0xA770_0000 :: rom.pulseTable.drop 2 } }

/-- PowerChangeWithoutUsableRowEnds: a missing row and a row too long. -/
theorem test_witness_PowerChangeWithoutUsableRowEnds :
    ((0 : Channel).toNat < brokenRom.cfg.numLights ∧ (false = true → (0 : Brightness).toNat ≤ 64) ∧
        Power.on ≠ (brokenRom.light 0).power ∧ rowCode brokenRom.cfg 0 .on false = none) ∧
      (let s : State := { brokenRom with ls := [on 64, off 0] };
        Power.off ≠ (s.light 0).power ∧ rowCode s.cfg 0 .off false = none ∧
          lookupRow s.cfg 0 .off false ≠ none) := by decide +kernel

/-- LowBrightnessTakesOffRoute: Q24 and Q28, at 1 and at 0. -/
theorem test_witness_LowBrightnessTakesOffRoute :
    let s := fetched (on 64) (off 0) 0x1000_C001;
    (0 : Channel).toNat < s.cfg.numLights ∧ (1 : Brightness).toNat ≤ 1 ∧ 1 ≠ (s.light 0).brightness ∧
      0 ≠ (s.light 0).brightness ∧ s.light 0 ≠ { power := .off, brightness := 0 } ∧
      rowCode s.cfg 0 .off false = some 0x4AA5_4A40 := by decide +kernel

/-- LowBrightnessWithoutUsableRowEnds: a row too long and a missing row, at 1 and at 0. -/
theorem test_witness_LowBrightnessWithoutUsableRowEnds :
    (let s : State := { brokenRom with ls := [on 64, off 0] };
      (0 : Channel).toNat < s.cfg.numLights ∧ (1 : Brightness).toNat ≤ 1 ∧ 1 ≠ (s.light 0).brightness ∧
        s.light 0 ≠ { power := .off, brightness := 0 } ∧ rowCode s.cfg 0 .off false = none ∧
        lookupRow s.cfg 0 .off false ≠ none) ∧
      (let s : State :=
        { brokenRom with cfg := { rom with pulseTable := rom.pulseTable.set 7 0 } };
      (1 : Channel).toNat < s.cfg.numLights ∧ (0 : Brightness).toNat ≤ 1 ∧ 0 ≠ (s.light 1).brightness ∧
        s.light 1 ≠ { power := .off, brightness := 0 } ∧ rowCode s.cfg 1 .off false = none ∧
        lookupRow s.cfg 1 .off false = none) := by decide +kernel

/-- DimRequestStartsSequence: Q9 down to 2 and Q10 up to 64. -/
theorem test_witness_DimRequestStartsSequence :
    (let s := fetched (on 64) (off 0) 0x1000_C002;
      (0 : Channel).toNat < s.cfg.numLights ∧ 2 ≤ (2 : Brightness).toNat ∧ (2 : Brightness).toNat ≤ 64 ∧
        2 ≠ (s.light 0).brightness ∧ ¬ (s.light 0).brightness.toNat < (2 : Brightness).toNat ∧
        rowCode s.cfg 0 .dimDown false = some 0x4A94_0000 ∧ rowCode s.cfg 0 .dimDown true = some 0x4A90_0000) ∧
      (let s := fetched (on 2) (off 0) 0x1000_C040;
        2 ≤ (64 : Brightness).toNat ∧ (64 : Brightness).toNat ≤ 64 ∧ 64 ≠ (s.light 0).brightness ∧
          (s.light 0).brightness.toNat < (64 : Brightness).toNat ∧
          rowCode s.cfg 0 .dimUp false = some 0x4A50_0000 ∧ rowCode s.cfg 0 .dimUp true = some 0x4A54_0000) := by
  decide +kernel

/-- DimRequestErrorOrder: channel 1's DimDown row is missing and its DimUp row too long. -/
theorem test_witness_DimRequestErrorOrder :
    (let s := fetched (off 0) (on 64) 0x1001_C028;
      (1 : Channel).toNat < s.cfg.numLights ∧ 2 ≤ (40 : Brightness).toNat ∧ (40 : Brightness).toNat ≤ 64 ∧
        40 ≠ (s.light 1).brightness ∧ rowCode s.cfg 1 .dimDown false = none ∧
        lookupRow s.cfg 1 .dimDown false = none) ∧
      (let s := fetched (off 0) (off 0) 0x1001_400A;
        10 ≠ (s.light 1).brightness ∧ (s.light 1).brightness.toNat < (10 : Brightness).toNat ∧
          rowCode s.cfg 1 .dimUp false = none ∧ lookupRow s.cfg 1 .dimUp false ≠ none) := by decide +kernel

/-- OnOffResponseCommits, both clauses, on either leg. -/
theorem test_witness_OnOffResponseCommits :
    (let s := sendingOn (.txPort .ok);
      s.phase = .onOffTx ∧ s.txOut.isSome = true ∧ s.nextEvent = .txPort .ok) ∧
      (let s := sendingLow (.txPort .transmitError);
        s.phase = .onOffTx ∧ s.txOut.isSome = true ∧ s.nextEvent = .txPort .transmitError) := by decide

/-- DimStepsAdvance, the responses' clauses. -/
theorem test_witness_DimStepsAdvance_responses :
    (let s := dimming0 (.txPort .ok);
      s.phase = .dimTx0 ∧ s.txOut.isSome = true ∧ s.nextEvent = .txPort .ok) ∧
      (let s := dimming1 (.txPort .ok);
        s.phase = .dimTx1 ∧ s.txOut.isSome = true ∧ s.nextEvent = .txPort .ok) ∧
      (let s := dimming1 (.txPort .transmitError);
        s.phase = .dimTx1 ∧ s.txOut.isSome = true ∧ s.nextEvent = .txPort .transmitError) := by decide

/-- DimStepsAdvance, the expiry's clauses, at one step left and at none. -/
theorem test_witness_DimStepsAdvance_expiry :
    (let s := dimming .dimDelay 1 none .sequencer;
      s.phase = .dimDelay ∧ s.nextEvent = .sequencer ∧ 0 < s.stepsLeft.toNat) ∧
      (let s := dimming .dimDelay 0 none .sequencer;
        s.phase = .dimDelay ∧ s.nextEvent = .sequencer ∧ s.stepsLeft = 0) := by decide

/-- PublishErrorSetsOnlyItsBit, and both clauses of PublishResponseContinues for either response, the first clause for
each of its three alternatives. -/
theorem test_witness_publishResponse :
    (let s := publishing (.sink .ok);
      s.phase = .pub ∧ s.pubOut.isSome = true ∧ s.nextEvent = .sink .ok ∧ s.cmdSb = false ∧ s.leg = .power ∧
        s.cmdCh.toNat < s.cfg.numLights ∧ s.cmdDb.toNat ≤ 64 ∧ s.cmdDp = (s.light s.cmdCh).power) ∧
      (let s := publishingDim (.sink .publishError);
        s.phase = .pub ∧ s.pubOut.isSome = true ∧ s.nextEvent = .sink .publishError ∧ s.leg = .brightness) ∧
      (let s : State := { publishing (.sink .ok) with cmdSb := true, cmdDb := 64 };
        s.cmdDb = (s.light s.cmdCh).brightness ∧ s.leg = .power ∧ s.cmdDb.toNat ≤ 64) := by decide

/-- QStateReadsTheSelectedEntry: both clauses, where they meet; and `PARAM`'s premise at its bound. -/
theorem test_witness_QStateReadsTheSelectedEntry :
    (let s : State := { idle (off 0) (on 64) .reset with qsel := 1 };
      s.qsel.toNat < s.cfg.numLights ∧ regRead 4 s = 0x8000_0140) ∧
      (let s : State := { idle (off 0) (on 64) .reset with qsel := 2 };
        s.cfg.numLights ≤ s.qsel.toNat ∧ regRead 4 s = 0) ∧
      (256 ≤ 256 ∧ 6 ≤ (6 : WordIndex).toNat ∧ 6 ≤ (15 : WordIndex).toNat) := by decide

/-- ReadHasNoSideEffect, IdleCommandWriteIsAccepted, BusyCommandWriteIsRefused and OtherWritesSetOnlyQsel (its two
clauses at the words 3 and 4). -/
theorem test_witness_hostAccesses :
    (idle (off 0) (off 0) (.hostRead 5)).nextEvent = .hostRead 5 ∧
      (let s := idle (off 0) (off 0) (.hostWrite 0 0xFFFF_FFFF);
        s.phase = .idle ∧ s.nextEvent = .hostWrite 0 0xFFFF_FFFF) ∧
      (let s := sendingOn (.hostWrite 0 0x1000_0000);
        s.phase ≠ .idle ∧ s.nextEvent = .hostWrite 0 0x1000_0000) ∧
      ((3 : WordIndex) ≠ 0 ∧ (idle (off 0) (off 0) (.hostWrite 3 0x105)).nextEvent = .hostWrite 3 0x105) ∧
      ((4 : WordIndex) ≠ 3 ∧ (idle (off 0) (off 0) (.hostWrite 4 1)).nextEvent = .hostWrite 4 1) := by decide

/-- BridgedAccessIsWordOrRefused: each clause at its bounds. -/
theorem test_witness_BridgedAccessIsWordOrRefused :
    (60 = 4 * (15 : WordIndex).toNat ∧ 0 = 4 * (0 : WordIndex).toNat) ∧ (2 ≠ 4 ∨ 60 % 4 ≠ 0) ∧
      (4 ≠ 4 ∨ 61 % 4 ≠ 0) ∧ (64 % 4 = 0 ∧ 64 ≤ 64) := by decide

theorem test_witness_HostCannotDisturbRunningCommand :
    (dimming0 .reset).phase ≠ .idle ∧ (Event.hostWrite 3 7) ∈ [Event.hostWrite 3 7, .hostRead 3] ∧
      (Event.hostRead 3) ∈ [Event.hostWrite 3 7, .hostRead 3] := by decide

/-- ResetStepSetsEverything, and both clauses of LateResponseIsDiscarded. -/
theorem test_witness_reset :
    (dimming0 .reset).nextEvent = .reset ∧
      (let s := idle (off 0) (off 0) (.txPort .ok);
        s.txOut = none ∧ s.nextEvent = .txPort .ok) ∧
      (let s := idle (off 0) (off 0) (.sink .publishError);
        s.pubOut = none ∧ s.nextEvent = .sink .publishError) := by decide

/-- EveryWordIsACommandOrIllegal: a word for each clause, and for each way to be illegal. -/
theorem test_witness_EveryWordIsACommandOrIllegal :
    (let s := fetched (off 0) (off 0) 0x10FF_C07F;
      s.nextEvent = .sequencer ∧ s.phase = .exec ∧ s.cmd.toNat / 2 ^ 28 = 1 ∧ s.cmd &&& 0x0F00_3F80 = 0) ∧
      ((0x20FF_3100 : Word).toNat / 2 ^ 28 = 2 ∧ (0x20FF_3100 : Word) &&& 0x0F00_CEFF = 0) ∧
      ((0x30FF_3100 : Word).toNat / 2 ^ 28 = 3 ∧ (0x30FF_3100 : Word) &&& 0x0F00_CEFF = 0) ∧
      ((0x0000_0000 : Word).toNat / 2 ^ 28 = 0 ∧ 4 ≤ (0x4000_0000 : Word).toNat / 2 ^ 28 ∧
        4 ≤ (0xFFFF_FFFF : Word).toNat / 2 ^ 28) ∧
      ((0x1000_0080 : Word).toNat / 2 ^ 28 = 1 ∧ (0x1000_0080 : Word) &&& 0x0F00_3F80 ≠ 0) ∧
      ((0x2000_0001 : Word).toNat / 2 ^ 28 ≠ 1 ∧ (0x2000_0001 : Word) &&& 0x0F00_CEFF ≠ 0) := by decide

/-- StepRunsDecodedCommand, for a word of each command. -/
theorem test_witness_execStep :
    (let s := fetched (off 0) (off 0) 0x1000_8000;
      s.nextEvent = .sequencer ∧ s.phase = .exec ∧ decode s.cmd = .ok (.requestState 0 .on false 0)) ∧
      decode (fetched (off 0) (off 0) 0x2000_2100).cmd = .ok (.lookup 0 .dimUp true) ∧
      decode (fetched (off 0) (off 0) 0x3001_3000).cmd = .ok (.encode 1 .dimDown false) := by decide

/-- StepKeepsInvariant, StepKeepsParameters and AtMostOnePortRequest: a step out of a state of the invariant. -/
theorem test_witness_step :
    Inv (sendingOn (.txPort .ok)) ∧ ∃ t, step (sendingOn (.txPort .ok)) = .next t :=
  ⟨test_inv_onOffTx, _, rfl⟩

/-- OnlyCommitsWriteLightsAndPublish: its premises, in either commit's step. -/
theorem test_witness_OnlyCommitsWriteLightsAndPublish :
    (∃ t, step (sendingOn (.txPort .ok)) = .next t ∧ (sendingOn (.txPort .ok)).nextEvent ≠ .reset ∧
        t.ls ≠ (sendingOn (.txPort .ok)).ls) ∧
      ∃ t, step (dimming .dimDelay 0 none .sequencer) = .next t ∧
        (dimming .dimDelay 0 none .sequencer).nextEvent ≠ .reset ∧
        t.ls ≠ (dimming .dimDelay 0 none .sequencer).ls :=
  ⟨⟨_, rfl, by decide, by decide⟩, ⟨_, rfl, by decide, by decide⟩⟩

/-- EverySendIsAnEncodedRow: a step after which a send is outstanding. -/
theorem test_witness_EverySendIsAnEncodedRow :
    Inv (dimming0 (.txPort .ok)) ∧
      ∃ t, step (dimming0 (.txPort .ok)) = .next t ∧ t.txOut = dimSend 0x4A54_0000 :=
  ⟨test_inv_dimTx0, _, rfl, by decide⟩

/-- BusyReadsShowNoResult: a step after which the block is busy. -/
theorem test_witness_BusyReadsShowNoResult :
    Inv (dimming0 (.txPort .ok)) ∧
      ∃ t, step (dimming0 (.txPort .ok)) = .next t ∧ (regRead 1 t).getLsbD 0 = true :=
  ⟨test_inv_dimTx0, _, rfl, by decide⟩

theorem test_witness_OneAgentMovesABusyBlock :
    Inv (publishing (.sink .ok)) ∧ (publishing (.sink .ok)).phase ≠ .idle ∧
      Event.sequencer ∈
        [Event.sequencer, .txPort .ok, .txPort .transmitError, .sink .ok, .sink .publishError] :=
  ⟨test_inv_pub, by decide, by decide⟩

/-- PhaseMachineRunsTheProcedure and RequestEndsWithinBounds: Q7 about to run. -/
theorem test_witness_PhaseMachineRunsTheProcedure :
    Inv (fetched (on 64) (off 40) 0x1000_C03C) ∧ (fetched (on 64) (off 40) 0x1000_C03C).phase = .exec ∧
      decode (fetched (on 64) (off 40) 0x1000_C03C).cmd = .ok (.requestState 0 .on true 60) ∧ 196 ≤ 196 :=
  ⟨test_inv_exec, rfl, by decide, Nat.le_refl _⟩

theorem test_inv_satisfied : Inv (fetched (on 64) (off 0) 0x1000_C040) :=
  ⟨by decide, by decide, by decide, by decide, by decide, by decide, by decide, by decide, by decide⟩

/-- SuccessfulRequestReachesItsTarget: Q11, which ends with `OK` in its first step. -/
theorem test_witness_SuccessfulRequestReachesItsTarget :
    Inv (fetched (on 64) (off 0) 0x1000_C040) ∧ (fetched (on 64) (off 0) 0x1000_C040).phase = .exec ∧
      decode (fetched (on 64) (off 0) 0x1000_C040).cmd = .ok (.requestState 0 .on true 64) ∧
      Reachable (on 64) ∧ (drive (fun _ => true) 196 (fetched (on 64) (off 0) 0x1000_C040) []).1.status.err = .ok :=
  ⟨test_inv_satisfied, rfl, by decide, by decide, by decide +kernel⟩

theorem test_inv_failing : Inv (fetched (off 0) (off 0) 0x1001_C028) :=
  ⟨by decide, by decide, by decide, by decide, by decide, by decide, by decide, by decide, by decide⟩

/-- FailedRequestKeepsOnlyEarlierCommit: P2 line 5, which fails after its power leg, and the same answered
`TransmitError` at once. -/
theorem test_witness_FailedRequestKeepsOnlyEarlierCommit :
    let s := fetched (off 0) (off 0) 0x1001_C028;
    Inv s ∧ s.phase = .exec ∧ decode s.cmd = .ok (.requestState 1 .on true 40) ∧
      ((drive (fun _ => true) 196 s []).1.status.err ≠ .ok ∧ (drive (fun _ => true) 196 s []).1.status.pLeg = true) ∧
      ((drive (fun _ => false) 196 s []).1.status.err ≠ .ok ∧
        (drive (fun _ => false) 196 s []).1.status.pLeg = false) :=
  ⟨test_inv_failing, rfl, by decide, by decide +kernel, by decide +kernel⟩

/-- DimSendsExactPairs: Q7, four steps down. -/
theorem test_witness_DimSendsExactPairs :
    let s := fetched (on 64) (off 40) 0x1000_C03C;
    Inv s ∧ s.phase = .exec ∧ decode s.cmd = .ok (.requestState 0 (s.light 0).power true 60) ∧
      (0 : Channel).toNat < s.cfg.numLights ∧ 2 ≤ (60 : Brightness).toNat ∧ (60 : Brightness).toNat ≤ 64 ∧
      60 ≠ (s.light 0).brightness ∧ ¬ (s.light 0).brightness.toNat < (60 : Brightness).toNat ∧
      rowCode s.cfg 0 .dimDown false = some 0x4A94_0000 ∧ rowCode s.cfg 0 .dimDown true = some 0x4A90_0000 :=
  ⟨test_inv_exec, by decide +kernel⟩

end Sys2Proof.Tests
end

/-! # The state family: the invariant, the frames of the steps and the reads of the window -/

section
/-! SUPPORT. Further facts about the model's operations: the fields a status update leaves, what starting a sequence
comes to, and the kinds of step an agent takes (60_exceptions.md R118). -/

namespace Sys2Proof.Proofs

open Sys2Proof.Machine Sys2Proof.Safety

/-! ## The stored fields of `STATUS` -/

@[simp] theorem committed_done (st : Status) (g : Leg) : (st.committed g).done = st.done := by cases g <;> rfl
@[simp] theorem committed_err (st : Status) (g : Leg) : (st.committed g).err = st.err := by cases g <;> rfl
@[simp] theorem published_done (st : Status) (r : PubResponse) : (st.published r).done = st.done := by cases r <;> rfl
@[simp] theorem published_err (st : Status) (r : PubResponse) : (st.published r).err = st.err := by cases r <;> rfl
@[simp] theorem published_bLeg (st : Status) (r : PubResponse) : (st.published r).bLeg = st.bLeg := by cases r <;> rfl

/-! ## Light states -/

theorem commitAndPublish_light {s : State} (hs : Sized s) (hc : s.cmdCh.toNat < s.cfg.numLights) (l : LightState)
    (g : Leg) : (commitAndPublish l g s).light s.cmdCh = l :=
  light_setLight_same s s.cmdCh l (hs.2 ▸ hc)

theorem commitAndPublish_lightsReachable {s : State} (h : LightsReachable s) {l : LightState} (hl : Reachable l)
    (g : Leg) : LightsReachable (commitAndPublish l g s) := fun x hx =>
  (List.mem_or_eq_of_mem_set hx).elim (h x) fun e => e ▸ hl

theorem onOffCommitted_reachable (s : State) : Reachable (onOffCommitted s) := by
  unfold onOffCommitted
  cases s.leg with
  | power => cases s.cmdDp <;> decide
  | brightness => exact .inl rfl

theorem reachable_brightness_le {l : LightState} (h : Reachable l) : l.brightness.toNat ≤ 64 :=
  h.elim (fun e => by rw [e]; decide) And.right

/-! ## Starting a sequence -/

/-- An On/Off sequence sends the code word of its row, or ends the request for want of one. -/
theorem startOnOff_cases (g : Leg) (o : Operation) (s : State) :
    (∃ e, startOnOff g o s = finishRequest e { s with leg := g, op := o }) ∨
      ∃ code, rowCode s.cfg s.cmdCh o false = some code ∧
        startOnOff g o s =
          issueSend (payload code) onOffRepeat onOffDelay .onOffTx { s with leg := g, op := o, code0 := code } := by
  cases h : rowCode s.cfg s.cmdCh o false with
  | none => exact .inl ⟨_, startOnOff_ends h⟩
  | some code => exact .inr ⟨code, rfl, startOnOff_sends h⟩

/-- A dim sequence sends the first of its two code words, or ends the request for want of either. -/
theorem startDim_cases (o : Operation) (n : Nat) (s : State) :
    (∃ e, startDim o n s = finishRequest e { s with leg := .brightness, op := o }) ∨
      ∃ code0 code1, rowCode s.cfg s.cmdCh o false = some code0 ∧ rowCode s.cfg s.cmdCh o true = some code1 ∧
        startDim o n s =
          issueSend (payload code0) dimRepeat dimDelay .dimTx0
            { s with
              leg := .brightness
              op := o
              code0 := code0
              code1 := code1
              stepsLeft := BitVec.ofNat 7 n } := by
  cases h0 : rowCode s.cfg s.cmdCh o false with
  | none => exact .inl ⟨_, startDim_ends (.inl h0)⟩
  | some code0 =>
    cases h1 : rowCode s.cfg s.cmdCh o true with
    | none => exact .inl ⟨_, startDim_ends (.inr h1)⟩
    | some code1 => exact .inr ⟨code0, code1, rfl, rfl, startDim_sends h0 h1⟩

/-- A dim sequence has 1 to 64 steps: the brightnesses differ, and neither is above 64. -/
theorem dimDelta_natAbs_bounds {db b : Brightness} (hne : db ≠ b) (hdb : db.toNat ≤ 64) (hb : b.toNat ≤ 64) :
    1 ≤ (dimDelta db b).natAbs ∧ (dimDelta db b).natAbs ≤ 64 := by
  have : db.toNat ≠ b.toNat := fun h => hne (BitVec.eq_of_toNat_eq h)
  unfold dimDelta
  omega

/-! ## The sequencer's step and a bridged access -/

theorem lookupCommand_eq_finishWith (ch : Channel) (op : Operation) (sub : Bool) (s : State) :
    ∃ r e, lookupCommand ch op sub s = finishWith r e s := by
  unfold lookupCommand
  split <;> exact ⟨_, _, rfl⟩

theorem encodeCommand_eq_finishWith (ch : Channel) (op : Operation) (sub : Bool) (s : State) :
    ∃ r e, encodeCommand ch op sub s = finishWith r e s := by
  unfold encodeCommand
  split
  · exact ⟨_, _, rfl⟩
  · split <;> exact ⟨_, _, rfl⟩

/-- A command's `EXEC` step begins a request whose fields it latches, or finishes at once with a result. -/
theorem exec_cases (i : Instr) (s : State) :
    (∃ ch dp sb db, exec i s = .next (beginRequest (latchRequest ch dp sb db s))) ∨
      ∃ r e, exec i s = .next (finishWith r e s) := by
  cases i with
  | requestState ch dp sb db => exact .inl ⟨ch, dp, sb, db, rfl⟩
  | lookup ch op sub =>
    obtain ⟨r, e, h⟩ := lookupCommand_eq_finishWith ch op sub s
    exact .inr ⟨r, e, congrArg Host.Outcome.next h⟩
  | encode ch op sub =>
    obtain ⟨r, e, h⟩ := encodeCommand_eq_finishWith ch op sub s
    exact .inr ⟨r, e, congrArg Host.Outcome.next h⟩

/-- The sequencer begins a request, finishes a command at once, ends the delay, or has no enabled step. -/
theorem sequencerStep_cases (s : State) :
    (s.phase = .exec ∧ ∃ ch dp sb db, sequencerStep s = .next (beginRequest (latchRequest ch dp sb db s))) ∨
      (s.phase = .exec ∧ ∃ r e, sequencerStep s = .next (finishWith r e s)) ∨
      (s.phase = .dimDelay ∧ sequencerStep s = .next (dimDelayExpiry s)) ∨
      sequencerStep s = .next s := by
  by_cases hp : s.phase = .exec
  · cases hd : decode s.cmd with
    | error d => exact .inr (.inl ⟨hp, 0, .illegalCommand, sequencerStep_illegal hp hd⟩)
    | ok i =>
      rw [sequencerStep_exec hp hd]
      exact (exec_cases i s).elim (fun h => .inl ⟨hp, h⟩) fun h => .inr (.inl ⟨hp, h⟩)
  · by_cases hd : s.phase = .dimDelay
    · exact .inr (.inr (.inl ⟨hd, sequencerStep_dimDelay hd⟩))
    · exact .inr (.inr (.inr (sequencerStep_other hp hd)))

/-- The delay's expiry sends the next step's first payload, or commits the dim leg when no step is left. -/
theorem dimDelayExpiry_cases (s : State) :
    (0 < s.stepsLeft.toNat ∧
        dimDelayExpiry s = issueSend (payload s.code0) dimRepeat dimDelay .dimTx0 { s with delayRun := false }) ∨
      (s.stepsLeft = 0 ∧
        dimDelayExpiry s =
          commitAndPublish { power := (s.light s.cmdCh).power, brightness := s.cmdDb } .brightness
            { s with delayRun := false }) := by
  by_cases h : 0 < s.stepsLeft.toNat
  · exact .inl ⟨h, dimDelayExpiry_more h⟩
  · have hz : s.stepsLeft = 0 := BitVec.eq_of_toNat_eq (by simpa using h)
    exact .inr ⟨hz, dimDelayExpiry_last hz⟩

theorem busAccess_next {s t : State} {addr size : Nat} {f : WordIndex → State → State}
    (ht : busAccess addr size f s = .next t) : ∃ k, t = f k s := by
  obtain ⟨k, -, -, e⟩ | ⟨-, -, -, e⟩ | ⟨-, e⟩ := busAccess_cases addr size f s <;> rw [e] at ht <;> cases ht
  exact ⟨k, rfl⟩

end Sys2Proof.Proofs
end

section
/-! The invariant (O46, O43). Read phase by phase it is a short list of facts (`InvAt`); every step then takes the list
of the phase it leaves apart and puts that of the phase it enters together. -/

namespace Sys2Proof.Proofs

open Sys2Proof.Machine Sys2Proof.Safety

variable {s : State}

/-! ## The invariant phase by phase -/

/-- What holds of every accepted command until it finishes: a sound array and the results held at 0. -/
abbrev Busy (s : State) : Prop :=
  Sized s ∧ LightsReachable s ∧ s.status.done = false ∧ s.status.err = .ok ∧ s.result0 = 0

/-- A busy state whose brightness leg is still to come, and which waits neither for the sink nor for the delay: where
a sequence starts, goes on and commits. -/
abbrev Ready (s : State) : Prop :=
  Busy s ∧ s.pubOut = none ∧ s.delayRun = false ∧ s.status.bLeg = false

/-- The latched fields passed the entry checks (42_controller.md R79). -/
abbrev Checked (s : State) : Prop :=
  s.cmdCh.toNat < s.cfg.numLights ∧ (s.cmdSb = true → s.cmdDb.toNat ≤ 64)

/-- The latched fields and the code word fit an On/Off sequence (42_controller.md R80, R85). -/
abbrev OnOffFits (s : State) : Prop :=
  Checked s ∧ rowCode s.cfg s.cmdCh s.op false = some s.code0 ∧
    (s.leg = .power → s.op = powerOperation s.cmdDp ∧ s.status.pLeg = false ∧ s.status.pubErr = false) ∧
    (s.leg = .brightness → s.op = .off ∧ s.cmdSb = true ∧ s.cmdDb.toNat ≤ 1)

/-- The latched fields and the code words fit a dim sequence (42_controller.md R83). -/
abbrev DimFits (s : State) : Prop :=
  Checked s ∧ s.cmdSb = true ∧ 2 ≤ s.cmdDb.toNat ∧
    rowCode s.cfg s.cmdCh s.op false = some s.code0 ∧ rowCode s.cfg s.cmdCh s.op true = some s.code1 ∧
    s.leg = .brightness ∧ (s.op = .dimUp ∨ s.op = .dimDown)

/-- What the invariant says of a state in phase `p`. -/
def InvAt (p : Phase) (s : State) : Prop :=
  match p with
  | .idle =>
    Sized s ∧ LightsReachable s ∧ s.txOut = none ∧ s.pubOut = none ∧ s.delayRun = false ∧
      (s.status.done = false → s.status.err = .ok)
  | .exec => Ready s ∧ s.txOut = none ∧ s.status.pLeg = false ∧ s.status.pubErr = false
  | .onOffTx =>
    Ready s ∧ OnOffFits s ∧ s.txOut = some { payload := payload s.code0, repeatCount := 4, delayBetween := 0 }
  | .dimTx0 =>
    Ready s ∧ DimFits s ∧ (1 ≤ s.stepsLeft.toNat ∧ s.stepsLeft.toNat ≤ 64) ∧
      s.txOut = some { payload := payload s.code0, repeatCount := 1, delayBetween := 0 }
  | .dimTx1 =>
    Ready s ∧ DimFits s ∧ (1 ≤ s.stepsLeft.toNat ∧ s.stepsLeft.toNat ≤ 64) ∧
      s.txOut = some { payload := payload s.code1, repeatCount := 1, delayBetween := 0 }
  | .dimDelay =>
    Ready { s with delayRun := false } ∧ DimFits s ∧ s.stepsLeft.toNat ≤ 63 ∧ s.txOut = none ∧ s.delayRun = true
  | .pub =>
    Busy s ∧ Checked s ∧ s.txOut = none ∧ s.delayRun = false ∧
      s.pubOut = some
        { channel := s.cmdCh, power := (s.light s.cmdCh).power, brightness := (s.light s.cmdCh).brightness } ∧
      (s.leg = .power → s.status.pLeg = true ∧ s.status.bLeg = false ∧ s.status.pubErr = false) ∧
      (s.leg = .brightness → s.status.bLeg = true)

/-- Every part of the invariant is conditional on the phase: once the phase is known, the conditions are decided. -/
theorem inv_iff_invAt (s : State) : Inv s ↔ InvAt s.phase s := by
  unfold InvAt
  cases hp : s.phase <;>
    simp [Safety.Inv, OneWait, Sending, Dimming, RightRequest, RightCodes, RightRequestFields, RightSteps, ResultsHeld,
      LegsShown, hp] <;>
    grind

theorem invAt_of_inv {p : Phase} (h : Inv s) (hp : s.phase = p) : InvAt p s := hp ▸ (inv_iff_invAt s).1 h

/-! ## Entering a phase -/

theorem inv_finishWith (hs : Sized s) (hl : LightsReachable s) (r : Word) (e : ErrorCode) : Inv (finishWith r e s) :=
  (inv_iff_invAt _).2 ⟨hs, hl, rfl, rfl, rfl, fun h => by cases h⟩

theorem inv_finishRequest (hs : Sized s) (hl : LightsReachable s) (e : ErrorCode) : Inv (finishRequest e s) :=
  inv_finishWith hs hl _ e

theorem inv_accept (h : Inv s) (hp : s.phase = .idle) (v : Word) : Inv (accept v s) := by
  obtain ⟨hs, hl, htx, hpub, hdelay, -⟩ := invAt_of_inv h hp
  exact (inv_iff_invAt _).2 ⟨⟨⟨hs, hl, rfl, rfl, rfl⟩, hpub, hdelay, rfl⟩, htx, rfl, rfl⟩

theorem inv_issueOnOff (hr : Ready s) (hf : OnOffFits s) :
    Inv (issueSend (payload s.code0) onOffRepeat onOffDelay .onOffTx s) :=
  (inv_iff_invAt _).2 ⟨hr, hf, rfl⟩

theorem inv_issueDim0 (hr : Ready s) (hf : DimFits s) (hn : 1 ≤ s.stepsLeft.toNat ∧ s.stepsLeft.toNat ≤ 64) :
    Inv (issueSend (payload s.code0) dimRepeat dimDelay .dimTx0 s) :=
  (inv_iff_invAt _).2 ⟨hr, hf, hn, rfl⟩

theorem inv_issueDim1 (hr : Ready s) (hf : DimFits s) (hn : 1 ≤ s.stepsLeft.toNat ∧ s.stepsLeft.toNat ≤ 64) :
    Inv (issueSend (payload s.code1) dimRepeat dimDelay .dimTx1 s) :=
  (inv_iff_invAt _).2 ⟨hr, hf, hn, rfl⟩

theorem inv_commitAndPublish (hr : Ready s) (hc : Checked s) (htx : s.txOut = none) {l : LightState}
    (hl : Reachable l) {g : Leg} (hg : s.leg = g) (hpub : g = .power → s.status.pubErr = false) :
    Inv (commitAndPublish l g s) := by
  subst hg
  obtain ⟨⟨hs, hls, hdone, herr, hres⟩, -, hdelay, hb⟩ := hr
  have hsized : Sized (commitAndPublish l s.leg s) := ⟨hs.1, (setLight_length s s.cmdCh l).trans hs.2⟩
  refine (inv_iff_invAt _).2
    ⟨⟨hsized, commitAndPublish_lightsReachable hls hl _, by simpa, by simpa, hres⟩, hc, htx, hdelay, ?_, ?_, ?_⟩
  · simp [commitAndPublish_light hs hc.1]
  · intro hg
    simpa [show s.leg = .power from hg, Status.committed, hb] using hpub hg
  · intro hg
    simp [show s.leg = .brightness from hg, Status.committed]

/-! ## Starting a sequence -/

theorem inv_startOnOff (hr : Ready s) (hc : Checked s) {g : Leg} {o : Operation}
    (hp : g = .power → o = powerOperation s.cmdDp ∧ s.status.pLeg = false ∧ s.status.pubErr = false)
    (hb : g = .brightness → o = .off ∧ s.cmdSb = true ∧ s.cmdDb.toNat ≤ 1) :
    Inv (startOnOff g o s) := by
  have ⟨⟨hs, hl, _⟩, _⟩ := hr
  obtain ⟨e, h⟩ | ⟨code, hcode, h⟩ := startOnOff_cases g o s <;> rw [h]
  · exact inv_finishRequest (s := { s with leg := g, op := o }) hs hl e
  · exact inv_issueOnOff (s := { s with leg := g, op := o, code0 := code }) hr ⟨hc, hcode, hp, hb⟩

theorem inv_startDim (hr : Ready s) (hc : Checked s) (hsb : s.cmdSb = true) (hdb : 2 ≤ s.cmdDb.toNat) {o : Operation}
    (ho : o = .dimUp ∨ o = .dimDown) {n : Nat} (hn : 1 ≤ n ∧ n ≤ 64) : Inv (startDim o n s) := by
  have ⟨⟨hs, hl, _⟩, _⟩ := hr
  obtain ⟨e, h⟩ | ⟨code0, code1, h0, h1, h⟩ := startDim_cases o n s <;> rw [h]
  · exact inv_finishRequest (s := { s with leg := .brightness, op := o }) hs hl e
  · have hsteps : 1 ≤ (BitVec.ofNat 7 n).toNat ∧ (BitVec.ofNat 7 n).toNat ≤ 64 := by
      rw [BitVec.toNat_ofNat]; omega
    exact inv_issueDim0
      (s := { s with leg := .brightness, op := o, code0 := code0, code1 := code1, stepsLeft := BitVec.ofNat 7 n })
      hr ⟨hc, hsb, hdb, h0, h1, rfl, ho⟩ hsteps

theorem inv_planBrightness (hr : Ready s) (hc : Checked s) : Inv (planBrightness s) := by
  have ⟨⟨hs, hl, _⟩, _⟩ := hr
  obtain h | ⟨hsb, hdb, -, -, h⟩ | ⟨hsb, hdb, hne, h⟩ := planBrightness_cases s <;> rw [h]
  · exact inv_finishRequest hs hl _
  · exact inv_startOnOff hr hc (fun e => by cases e) fun _ => ⟨rfl, hsb, hdb⟩
  · refine inv_startDim hr hc hsb hdb (ite_eq_or_eq _ _ _) ?_
    exact dimDelta_natAbs_bounds hne (hc.2 hsb) (reachable_brightness_le (light_reachable hl _))

theorem inv_beginRequest (hr : Ready s) (hp : s.status.pLeg = false) (he : s.status.pubErr = false) :
    Inv (beginRequest s) := by
  have ⟨⟨hs, hl, _⟩, _⟩ := hr
  obtain ⟨-, h⟩ | ⟨-, -, -, h⟩ | ⟨hch, hdb, -, h⟩ | ⟨hch, hdb, -, h⟩ := beginRequest_cases s <;> rw [h]
  · exact inv_finishRequest hs hl _
  · exact inv_finishRequest hs hl _
  · exact inv_startOnOff hr ⟨hch, hdb⟩ (fun _ => ⟨rfl, hp, he⟩) fun e => by cases e
  · exact inv_planBrightness hr ⟨hch, hdb⟩

/-! ## The steps of the agents -/

theorem inv_regWrite (h : Inv s) (k : WordIndex) (v : Word) : Inv (regWrite k v s) := by
  obtain ⟨hp, e⟩ | ⟨-, e⟩ | ⟨q, e⟩ := regWrite_cases k v s <;> rw [e]
  · exact inv_accept h hp v
  · exact h
  · exact h

theorem inv_hostRead (h : Inv s) (k : WordIndex) : Inv (hostRead k s) := h

theorem inv_onOffResponse (h : Inv s) (hp : s.phase = .onOffTx) (resp : TxResponse) : Inv (onOffResponse resp s) := by
  obtain ⟨hr, ⟨hc, -, hpow, -⟩, -⟩ := invAt_of_inv h hp
  cases resp with
  | transmitError => exact inv_finishRequest (s := { s with txOut := none }) h.1 h.2.1 _
  | ok =>
    exact inv_commitAndPublish (s := { s with txOut := none }) hr hc rfl (onOffCommitted_reachable s) rfl
      fun hg => (hpow hg).2.2

theorem inv_dimTx0Response (h : Inv s) (hp : s.phase = .dimTx0) (resp : TxResponse) :
    Inv (dimTx0Response resp s) := by
  obtain ⟨hr, hf, hn, -⟩ := invAt_of_inv h hp
  cases resp with
  | transmitError => exact inv_finishRequest (s := { s with txOut := none }) h.1 h.2.1 _
  | ok => exact inv_issueDim1 hr hf hn

theorem inv_dimTx1Response (h : Inv s) (hp : s.phase = .dimTx1) (resp : TxResponse) :
    Inv (dimTx1Response resp s) := by
  obtain ⟨⟨hbusy, hpub, -, hb⟩, hf, hn, -⟩ := invAt_of_inv h hp
  cases resp with
  | transmitError => exact inv_finishRequest (s := { s with txOut := none }) h.1 h.2.1 _
  | ok =>
    have hsteps : (s.stepsLeft - 1).toNat ≤ 63 := by bv_omega
    exact (inv_iff_invAt _).2 ⟨⟨hbusy, hpub, rfl, hb⟩, hf, hsteps, rfl, rfl⟩

theorem inv_dimDelayExpiry (h : Inv s) (hp : s.phase = .dimDelay) : Inv (dimDelayExpiry s) := by
  obtain ⟨hr, hf, hn, htx, -⟩ := invAt_of_inv h hp
  obtain ⟨hz, e⟩ | ⟨-, e⟩ := dimDelayExpiry_cases s <;> rw [e]
  · exact inv_issueDim0 (s := { s with delayRun := false }) hr hf ⟨hz, Nat.le_succ_of_le hn⟩
  · obtain ⟨hc, hsb, hdb, -, -, hg, -⟩ := hf
    exact inv_commitAndPublish (s := { s with delayRun := false }) hr hc htx (.inr ⟨hdb, hc.2 hsb⟩) hg
      fun e => by cases e

theorem inv_pubResponse (h : Inv s) (hp : s.phase = .pub) (resp : PubResponse) : Inv (pubResponse resp s) := by
  obtain ⟨⟨hs, hl, hdone, herr, hres⟩, hc, -, hdelay, -, hpow, -⟩ := invAt_of_inv h hp
  cases hg : s.leg with
  | power =>
    rw [pubResponse_power hg]
    exact inv_planBrightness ⟨⟨hs, hl, by simpa, by simpa, hres⟩, rfl, hdelay, by simpa using (hpow hg).2.1⟩ hc
  | brightness =>
    rw [pubResponse_brightness hg]
    exact inv_finishRequest (s := { s with pubOut := none, status := s.status.published resp }) hs hl _

theorem inv_txPortStep (h : Inv s) (resp : TxResponse) : Inv (txPortStep resp s) := by
  obtain ⟨-, hp, e⟩ | ⟨-, hp, e⟩ | ⟨-, hp, e⟩ | ⟨-, e⟩ := txPortStep_cases resp s <;> rw [e]
  · exact inv_onOffResponse h hp resp
  · exact inv_dimTx0Response h hp resp
  · exact inv_dimTx1Response h hp resp
  · exact h

theorem inv_sinkStep (h : Inv s) (resp : PubResponse) : Inv (sinkStep resp s) := by
  obtain ⟨-, hp, e⟩ | ⟨-, e⟩ := sinkStep_cases resp s <;> rw [e]
  · exact inv_pubResponse h hp resp
  · exact h

theorem inv_sequencerStep (h : Inv s) {t : State} (ht : sequencerStep s = .next t) : Inv t := by
  obtain ⟨hp, ch, dp, sb, db, e⟩ | ⟨-, r, c, e⟩ | ⟨hp, e⟩ | e := sequencerStep_cases s <;> rw [e] at ht <;> cases ht
  · obtain ⟨hr, -, hpow, herr⟩ := invAt_of_inv h hp
    exact inv_beginRequest (s := latchRequest ch dp sb db s) hr hpow herr
  · exact inv_finishWith h.1 h.2.1 r c
  · exact inv_dimDelayExpiry h hp
  · exact h

theorem inv_powerOn {c : Config} (h : c.wf = true) : Inv (State.powerOn c) :=
  (inv_iff_invAt _).2
    ⟨⟨h, List.length_replicate⟩, fun _ hl => .inl (List.eq_of_mem_replicate hl), rfl, rfl, rfl, fun _ => rfl⟩

theorem inv_perform (h : Inv s) {e : Event} {t : State} (ht : perform e s = .next t) : Inv t := by
  cases e with
  | hostWrite k v => cases ht; exact inv_regWrite h k v
  | hostRead k => cases ht; exact inv_hostRead h k
  | busWrite addr size v => obtain ⟨k, rfl⟩ := busAccess_next ht; exact inv_regWrite h k v
  | busRead addr size => obtain ⟨k, rfl⟩ := busAccess_next ht; exact inv_hostRead h k
  | sequencer => exact inv_sequencerStep h ht
  | txPort resp => cases ht; exact inv_txPortStep h resp
  | sink resp => cases ht; exact inv_sinkStep h resp
  | reset => cases ht; exact inv_powerOn h.1.1

theorem inv_takeEvent (h : Inv s) : Inv s.takeEvent := by
  rw [takeEvent_eq]
  exact h

/-- Settles O46: taking the choice keeps the invariant, and so does the chosen agent's step. -/
theorem stepKeepsInvariant : Obligations.StepKeepsInvariant :=
  fun _ _ h ht => inv_perform (inv_takeEvent h) ht

/-- Settles O43: the idle phase asks only for legal parameters and reachable light states. -/
theorem resetMeetsInvariant : Obligations.ResetMeetsInvariant :=
  ⟨fun _ h => inv_powerOn h, inv_powerOn built_wf⟩

end Sys2Proof.Proofs
end

section
/-! The frames: what an `EXEC` step leaves (O27), and which steps leave the parameters and the light states
(O47, O48). -/

namespace Sys2Proof.Proofs

open Sys2Proof.Machine Sys2Proof.Safety

variable {s t : State}

/-! ## The frame of an `EXEC` step -/

/-- `t` has everything of `s` but a command's own results, nothing new to publish, and is idle or waits for a send. -/
abbrev ExecKeeps (s t : State) : Prop :=
  t.cfg = s.cfg ∧ t.ls = s.ls ∧ t.cmd = s.cmd ∧ t.qsel = s.qsel ∧
    t.status = { s.status with done := t.status.done, err := t.status.err } ∧
    (t.pubOut = none ∨ t.pubOut = s.pubOut) ∧ (t.phase = .idle ∧ t.txOut = none ∨ Sending t ∧ t.txOut ≠ none) ∧
    t.readData = s.readData ∧ t.schedule = s.schedule ∧ t.drawn = s.drawn

theorem finishWith_keeps (r : Word) (e : ErrorCode) (s : State) : ExecKeeps s (finishWith r e s) :=
  ⟨rfl, rfl, rfl, rfl, rfl, .inl rfl, .inl ⟨rfl, rfl⟩, rfl, rfl, rfl⟩

theorem finishRequest_keeps (e : ErrorCode) (s : State) : ExecKeeps s (finishRequest e s) := finishWith_keeps _ e s

theorem issueSend_keeps (b : List Byte) (n d : Nat) {p : Phase} (hp : p = .onOffTx ∨ p = .dimTx0 ∨ p = .dimTx1)
    (s : State) : ExecKeeps s (issueSend b n d p s) :=
  ⟨rfl, rfl, rfl, rfl, rfl, .inr rfl, .inr ⟨hp, Option.some_ne_none _⟩, rfl, rfl, rfl⟩

theorem startOnOff_keeps (g : Leg) (o : Operation) (s : State) : ExecKeeps s (startOnOff g o s) := by
  obtain ⟨e, h⟩ | ⟨code, -, h⟩ := startOnOff_cases g o s <;> rw [h]
  · exact finishRequest_keeps e { s with leg := g, op := o }
  · exact issueSend_keeps _ _ _ (.inl rfl) { s with leg := g, op := o, code0 := code }

theorem startDim_keeps (o : Operation) (n : Nat) (s : State) : ExecKeeps s (startDim o n s) := by
  obtain ⟨e, h⟩ | ⟨code0, code1, -, -, h⟩ := startDim_cases o n s <;> rw [h]
  · exact finishRequest_keeps e { s with leg := .brightness, op := o }
  · exact issueSend_keeps _ _ _ (.inr (.inl rfl))
      { s with leg := .brightness, op := o, code0 := code0, code1 := code1, stepsLeft := BitVec.ofNat 7 n }

theorem planBrightness_keeps (s : State) : ExecKeeps s (planBrightness s) := by
  obtain h | ⟨-, -, -, -, h⟩ | ⟨-, -, -, h⟩ := planBrightness_cases s <;> rw [h]
  · exact finishRequest_keeps _ s
  · exact startOnOff_keeps _ _ s
  · exact startDim_keeps _ _ s

theorem beginRequest_keeps (s : State) : ExecKeeps s (beginRequest s) := by
  obtain ⟨-, h⟩ | ⟨-, -, -, h⟩ | ⟨-, -, -, h⟩ | ⟨-, -, -, h⟩ := beginRequest_cases s <;> rw [h]
  · exact finishRequest_keeps _ s
  · exact finishRequest_keeps _ s
  · exact startOnOff_keeps _ _ s
  · exact planBrightness_keeps s

/-- Settles O27: latching a request's fields is within the frame, and so is whatever the command then does. -/
theorem execFrame : Obligations.ExecFrame := by
  intro i s
  obtain ⟨ch, dp, sb, db, h⟩ | ⟨r, e, h⟩ := exec_cases i s
  · exact ⟨_, h, beginRequest_keeps (latchRequest ch dp sb db s)⟩
  · exact ⟨_, h, finishWith_keeps r e s⟩

/-! ## What a step can do to the light states -/

/-- `t` has the parameters and the light states of `s`, and no publish that `s` has not. -/
abbrev Quiet (s t : State) : Prop := t.cfg = s.cfg ∧ t.ls = s.ls ∧ (t.pubOut = none ∨ t.pubOut = s.pubOut)

theorem quiet_refl (s : State) : Quiet s s := ⟨rfl, rfl, .inr rfl⟩

theorem quiet_of_execKeeps (h : ExecKeeps s t) : Quiet s t := by
  obtain ⟨hcfg, hls, -, -, -, hpub, -⟩ := h
  exact ⟨hcfg, hls, hpub⟩

/-- The step from `s` to `t` is a commit: an On/Off sequence's on the port's `OK`, or a dim sequence's at the end of
its last delay (43_sequencer.md R100, R101). -/
inductive Commits (s t : State) : Event → Prop where
  | onOff (hp : s.phase = .onOffTx)
      (ht : t = commitAndPublish (onOffCommitted s) s.leg { s with txOut := none }) :
      Commits s t (.txPort .ok)
  | dim (hp : s.phase = .dimDelay) (hz : s.stepsLeft = 0)
      (ht : t = commitAndPublish { power := (s.light s.cmdCh).power, brightness := s.cmdDb } .brightness
        { s with delayRun := false }) :
      Commits s t .sequencer

theorem commits_cfg {e : Event} (h : Commits s t e) : t.cfg = s.cfg := by
  cases h with
  | onOff hp ht => subst ht; rfl
  | dim hp hz ht => subst ht; rfl

/-- A commit sets its leg's bit, writes one entry and publishes that entry. -/
theorem commits_effect {e : Event} (h : Commits s t e) :
    (s.phase = .onOffTx ∧ e = .txPort .ok ∨ s.phase = .dimDelay ∧ e = .sequencer ∧ s.stepsLeft = 0) ∧
      (if s.phase = .onOffTx ∧ s.leg = .power then t.status.pLeg = true else t.status.bLeg = true) ∧
      ∃ l : LightState, t.ls = s.ls.set s.cmdCh.toNat l ∧
        t.pubOut = some { channel := s.cmdCh, power := l.power, brightness := l.brightness } ∧ t.phase = .pub := by
  cases h with
  | onOff hp ht =>
    subst ht
    refine ⟨.inl ⟨hp, rfl⟩, ?_, _, rfl, rfl, rfl⟩
    cases hg : s.leg <;> simp [hp, Status.committed]
  | dim hp hz ht =>
    subst ht
    exact ⟨.inr ⟨hp, rfl, hz⟩, by simp [hp, Status.committed], _, rfl, rfl, rfl⟩

theorem regWrite_quiet (k : WordIndex) (v : Word) (s : State) : Quiet s (regWrite k v s) := by
  obtain ⟨-, e⟩ | ⟨-, e⟩ | ⟨q, e⟩ := regWrite_cases k v s <;> rw [e] <;> exact ⟨rfl, rfl, .inr rfl⟩

theorem hostRead_quiet (k : WordIndex) (s : State) : Quiet s (hostRead k s) := ⟨rfl, rfl, .inr rfl⟩

theorem finishRequest_quiet (e : ErrorCode) (s : State) : Quiet s (finishRequest e s) := ⟨rfl, rfl, .inl rfl⟩

theorem txPortStep_quiet_or_commits (resp : TxResponse) (s : State) :
    Quiet s (txPortStep resp s) ∨ Commits s (txPortStep resp s) (.txPort resp) := by
  obtain ⟨-, hp, e⟩ | ⟨-, -, e⟩ | ⟨-, -, e⟩ | ⟨-, e⟩ := txPortStep_cases resp s <;> rw [e]
  · cases resp with
    | ok => exact .inr (.onOff hp rfl)
    | transmitError => exact .inl (finishRequest_quiet _ { s with txOut := none })
  · cases resp with
    | ok => exact .inl ⟨rfl, rfl, .inr rfl⟩
    | transmitError => exact .inl (finishRequest_quiet _ { s with txOut := none })
  · cases resp with
    | ok => exact .inl ⟨rfl, rfl, .inr rfl⟩
    | transmitError => exact .inl (finishRequest_quiet _ { s with txOut := none })
  · exact .inl (quiet_refl s)

theorem pubResponse_quiet (resp : PubResponse) (s : State) : Quiet s (pubResponse resp s) := by
  cases hg : s.leg with
  | power =>
    rw [pubResponse_power hg]
    obtain ⟨hcfg, hls, hpub⟩ :=
      quiet_of_execKeeps (planBrightness_keeps { s with pubOut := none, status := s.status.published resp })
    exact ⟨hcfg, hls, .inl (hpub.elim id id)⟩
  | brightness =>
    rw [pubResponse_brightness hg]
    exact ⟨rfl, rfl, .inl rfl⟩

theorem sinkStep_quiet (resp : PubResponse) (s : State) : Quiet s (sinkStep resp s) := by
  obtain ⟨-, -, e⟩ | ⟨-, e⟩ := sinkStep_cases resp s <;> rw [e]
  · exact pubResponse_quiet resp s
  · exact quiet_refl s

theorem sequencerStep_quiet_or_commits (ht : sequencerStep s = .next t) : Quiet s t ∨ Commits s t .sequencer := by
  obtain ⟨-, ch, dp, sb, db, e⟩ | ⟨-, r, c, e⟩ | ⟨hp, e⟩ | e := sequencerStep_cases s <;> rw [e] at ht <;> cases ht
  · exact .inl (quiet_of_execKeeps (beginRequest_keeps (latchRequest ch dp sb db s)))
  · exact .inl (quiet_of_execKeeps (finishWith_keeps r c s))
  · obtain ⟨-, h⟩ | ⟨hz, h⟩ := dimDelayExpiry_cases s
    · rw [h]
      exact .inl ⟨rfl, rfl, .inr rfl⟩
    · exact .inr (.dim hp hz h)
  · exact .inl (quiet_refl s)

/-- A step is the reset, changes no light state and starts no publish, or is a commit. -/
theorem perform_quiet_or_commits {e : Event} (ht : perform e s = .next t) :
    (e = .reset ∧ t = resetStep s) ∨ Quiet s t ∨ Commits s t e := by
  cases e with
  | hostWrite k v => cases ht; exact .inr (.inl (regWrite_quiet k v s))
  | hostRead k => cases ht; exact .inr (.inl (hostRead_quiet k s))
  | busWrite addr size v => obtain ⟨k, rfl⟩ := busAccess_next ht; exact .inr (.inl (regWrite_quiet k v s))
  | busRead addr size => obtain ⟨k, rfl⟩ := busAccess_next ht; exact .inr (.inl (hostRead_quiet k s))
  | sequencer => exact .inr (sequencerStep_quiet_or_commits ht)
  | txPort resp => cases ht; exact .inr (txPortStep_quiet_or_commits resp s)
  | sink resp => cases ht; exact .inr (.inl (sinkStep_quiet resp s))
  | reset => cases ht; exact .inl ⟨rfl, rfl⟩

theorem perform_cfg {e : Event} (ht : perform e s = .next t) : t.cfg = s.cfg := by
  obtain ⟨-, rfl⟩ | ⟨hcfg, -⟩ | h := perform_quiet_or_commits ht
  · rfl
  · exact hcfg
  · exact commits_cfg h

/-- Settles O47: a reset rebuilds the block from its own parameters, and no other step touches them. -/
theorem stepKeepsParameters : Obligations.StepKeepsParameters :=
  fun s _ ht => (perform_cfg ht).trans (takeEvent_cfg s)

/-- Settles O48: a step that is neither the reset nor a commit is quiet, which the premise excludes. -/
theorem onlyCommitsWriteLightsAndPublish : Obligations.OnlyCommitsWriteLightsAndPublish := by
  intro s t ht hreset hchange
  obtain ⟨h, -⟩ | ⟨-, hls, hpub⟩ | h := perform_quiet_or_commits ht
  · exact absurd h hreset
  · rw [takeEvent_ls] at hls
    rw [takeEvent_pubOut] at hpub
    obtain hl | ⟨hnone, hnew⟩ := hchange
    · exact absurd hls hl
    · exact absurd (hpub.elim id (Eq.trans · hnone)) hnew
  · simpa using commits_effect h

end Sys2Proof.Proofs
end

section
/-! The reads of the host register window (O32, O33, O34, O35): each composed word as a number. -/

namespace Sys2Proof.Proofs

open Sys2Proof.Machine Sys2Proof.Safety

/-! ## Bits and fields of a word by its number -/

theorem getLsbD_eq_flag {w : Word} {i : Nat} {b : Bool} (h : w.toNat / 2 ^ i % 2 = b.toNat) : w.getLsbD i = b := by
  rw [getLsbD_eq_div, h]
  cases b <;> rfl

theorem field_toNat (w : Word) (i n : Nat) : (w.extractLsb' i n).toNat = w.toNat / 2 ^ i % 2 ^ n := by
  rw [BitVec.extractLsb'_toNat, Nat.shiftRight_eq_div_pow]

theorem field_eq_zero {w : Word} {i n : Nat} (h : w.toNat / 2 ^ i % 2 ^ n = 0) : w.extractLsb' i n = 0 := by
  rw [← BitVec.toNat_inj, field_toNat, h]
  simp

/-! ## The composed words -/

theorem statusWord_toNat (b : Bool) (st : Status) :
    (statusWord b st).toNat =
      b.toNat + 2 * st.done.toNat + 2 ^ 4 * st.err.code.toNat + 2 ^ 8 * st.pubErr.toNat + 2 ^ 9 * st.overrun.toNat +
        2 ^ 10 * st.pLeg.toNat + 2 ^ 11 * st.bLeg.toNat := by
  unfold statusWord
  erw [toNat_append_add, toNat_append_add, toNat_append_add, toNat_append_add, toNat_append_add, toNat_append_add,
    toNat_append_add, toNat_append_add]
  simp only [boolBit_toNat, BitVec.toNat_ofNat]
  omega

theorem lightWord_toNat (l : LightState) :
    (lightWord l).toNat = 2 ^ 31 + (if l.power = .on then 2 ^ 8 else 0) + l.brightness.toNat := by
  have hbit : l.power.bit.toNat = if l.power = .on then 1 else 0 := by cases l.power <;> rfl
  unfold lightWord
  erw [toNat_append_add, toNat_append_add, toNat_append_add, toNat_append_add]
  rw [hbit]
  split <;> simp

theorem paramWord_toNat {c : Config} (h : c.numLights ≤ 256) : (paramWord c).toNat = 64 * 2 ^ 16 + c.numLights := by
  unfold paramWord dimLevels
  erw [toNat_append_add, toNat_append_add, toNat_append_add]
  simp
  omega

/-! ## The reads -/

theorem regRead_status (s : State) : regRead 1 s = statusWord s.busy s.status := rfl

theorem regRead_qsel (s : State) : regRead 3 s = s.qsel.setWidth 32 := rfl

theorem regRead_reserved {k : WordIndex} (h : 6 ≤ k.toNat) (s : State) : regRead k s = 0 := by
  have hne (n : WordIndex) (hn : n.toNat < 6) : k ≠ n := fun e => by subst e; omega
  unfold regRead
  rw [if_neg (hne 0 (by decide)), if_neg (hne 1 (by decide)), if_neg (hne 2 (by decide)), if_neg (hne 3 (by decide)),
    if_neg (hne 4 (by decide)), if_neg (hne 5 (by decide))]

theorem regRead_takeEvent (k : WordIndex) (s : State) : regRead k s.takeEvent = regRead k s := by
  simp [regRead, State.busy]

/-- Settles O33: below `NUM_LIGHTS` the read is the entry's word, from there on it is 0. -/
theorem qStateReadsTheSelectedEntry : Obligations.QStateReadsTheSelectedEntry := by
  intro s
  refine ⟨fun h => ?_, fun h => if_neg (Nat.not_lt.2 h)⟩
  rw [← lightWord_toNat]
  exact congrArg BitVec.toNat (if_pos h)

/-- Settles O34: `PARAM` by its number, `QSEL` by its extension, and the rest by the word's index. -/
theorem otherWordsRead : Obligations.OtherWordsRead := by
  intro s
  refine ⟨rfl, rfl, ?_, paramWord_toNat, fun k hk => regRead_reserved hk s⟩
  rw [regRead_qsel, BitVec.toNat_setWidth_of_le (by decide)]

/-- Settles O32: each field is that field of the number `STATUS` reads as. -/
theorem statusReadsItsFields : Obligations.StatusReadsItsFields := by
  intro s w
  have hw : w.toNat = _ := statusWord_toNat s.busy s.status
  have hbusy := Bool.toNat_le s.busy
  have hdone := Bool.toNat_le s.status.done
  have hpubErr := Bool.toNat_le s.status.pubErr
  have hoverrun := Bool.toNat_le s.status.overrun
  have hpLeg := Bool.toNat_le s.status.pLeg
  have hbLeg := Bool.toNat_le s.status.bLeg
  have herr := s.status.err.code.isLt
  have hbit0 : w.getLsbD 0 = s.busy := getLsbD_eq_flag (by omega)
  have hcode : (w.extractLsb' 4 4).toNat = s.status.err.code.toNat := by rw [field_toNat]; omega
  refine ⟨?_, getLsbD_eq_flag (by omega), ?_, getLsbD_eq_flag (by omega), getLsbD_eq_flag (by omega),
    getLsbD_eq_flag (by omega), getLsbD_eq_flag (by omega), field_eq_zero (by omega), field_eq_zero (by omega)⟩
  · rw [hbit0]
    simp [State.busy]
  · rw [hcode]
    cases s.status.err <;> decide

/-- Settles O35: the choice of agent is nothing a read sees. -/
theorem readHasNoSideEffect : Obligations.ReadHasNoSideEffect := by
  intro s k h
  rw [step_eq s h, ← regRead_takeEvent]
  rfl

end Sys2Proof.Proofs
end

/-! # The memory family: the accesses of a bridge -/

section
/-! The accesses of a bridge (O39, O53): an aligned word of the window is the host's access of that word, and nothing
but another access of a bridge stops the machine (20_memory.md R40). -/

namespace Sys2Proof.Proofs

open Sys2Proof.Machine

/-! ## What a bridged access comes to -/

theorem busAccess_word (k : WordIndex) (f : WordIndex → State → State) (s : State) :
    busAccess (4 * k.toNat) 4 f s = .next (f k s) := by
  obtain ⟨j, -, hj, e⟩ | ⟨-, -, h, -⟩ | ⟨h, -⟩ := busAccess_cases (4 * k.toNat) 4 f s
  · have hkj : k = j := BitVec.eq_of_toNat_eq (by omega)
    rw [hkj] at e ⊢
    exact e
  · exact absurd k.isLt (by omega)
  · exact absurd h (by omega)

theorem busAccess_notWord {addr size : Nat} (h : size ≠ 4 ∨ addr % 4 ≠ 0) (f : WordIndex → State → State)
    (s : State) : busAccess addr size f s = .refused .subWordAccess := by
  obtain ⟨k, h4, hk, -⟩ | ⟨h4, ha, -, -⟩ | ⟨-, e⟩ := busAccess_cases addr size f s
  · exact absurd h (by omega)
  · exact absurd h (by omega)
  · exact e

theorem busAccess_beyond {addr : Nat} (ha : addr % 4 = 0) (h : 64 ≤ addr) (f : WordIndex → State → State)
    (s : State) : busAccess addr 4 f s = .refused .outsideWindow := by
  obtain ⟨k, -, hk, -⟩ | ⟨-, -, -, e⟩ | ⟨h', -⟩ := busAccess_cases addr 4 f s
  · exact absurd k.isLt (by omega)
  · exact e
  · exact absurd h' (by omega)

/-- Settles O39: the read and the write of a bridge are one access, with another effect on the word. -/
theorem bridgedAccessIsWordOrRefused : Obligations.BridgedAccessIsWordOrRefused := by
  intro s addr size v
  refine ⟨?word, fun h => ⟨busAccess_notWord h _ s, busAccess_notWord h _ s⟩, ?beyond⟩
  case word =>
    rintro k rfl rfl
    exact ⟨busAccess_word k _ s, busAccess_word k _ s⟩
  case beyond =>
    rintro rfl ha h
    exact ⟨busAccess_beyond ha h _ s, busAccess_beyond ha h _ s⟩

/-! ## Which steps have a next state -/

theorem busAccess_next_or_misfit (addr size : Nat) (f : WordIndex → State → State) (s : State) :
    (∃ t, busAccess addr size f s = .next t) ∨ (size ≠ 4 ∨ addr % 4 ≠ 0 ∨ 64 ≤ addr) := by
  obtain ⟨k, -, -, e⟩ | ⟨-, -, h, -⟩ | ⟨h, -⟩ := busAccess_cases addr size f s
  · exact .inl ⟨f k s, e⟩
  · exact .inr (.inr (.inr h))
  · exact .inr (h.imp_right .inl)

theorem sequencerStep_next (s : State) : ∃ t, sequencerStep s = .next t := by
  obtain ⟨-, ch, dp, sb, db, e⟩ | ⟨-, r, c, e⟩ | ⟨-, e⟩ | e := sequencerStep_cases s <;> exact ⟨_, e⟩

/-- Every agent's step has a next state, but an access of a bridge that is no word of the window. -/
theorem perform_next_or_misfit (e : Event) (s : State) :
    (∃ t, perform e s = .next t) ∨
      ∃ (addr size : Nat) (v : Word), e ∈ [.busRead addr size, .busWrite addr size v] ∧
        (size ≠ 4 ∨ addr % 4 ≠ 0 ∨ 64 ≤ addr) := by
  cases e with
  | busWrite addr size v =>
    exact (busAccess_next_or_misfit addr size _ s).imp_right fun h => ⟨addr, size, v, by simp, h⟩
  | busRead addr size =>
    exact (busAccess_next_or_misfit addr size _ s).imp_right fun h => ⟨addr, size, 0, by simp, h⟩
  | sequencer => exact .inl (sequencerStep_next s)
  | hostWrite k v => exact .inl ⟨_, rfl⟩
  | hostRead k => exact .inl ⟨_, rfl⟩
  | txPort resp => exact .inl ⟨_, rfl⟩
  | sink resp => exact .inl ⟨_, rfl⟩
  | reset => exact .inl ⟨_, rfl⟩

/-- Settles O53: a step is the next agent's, on the state with the choice taken. -/
theorem onlyBridgedAccessesAreRefused : Obligations.OnlyBridgedAccessesAreRefused :=
  fun s => perform_next_or_misfit s.nextEvent s.takeEvent

end Sys2Proof.Proofs
end

/-! # The encoding family: the command word, the row word and the payload -/

section
/-! The decoder and the encoder are one relation between words and commands (O1 to O5), and what an accepted word runs
as (O45). -/

namespace Sys2Proof.Proofs

open Sys2Proof.Machine

/-! ## The decoder against the encoder -/

theorem channelOf_eq_iff (w : Word) (ch : Channel) : channelOf w = ch ↔ w.toNat / 2 ^ 16 % 256 = ch.toNat := by
  rw [← channelOf_toNat, BitVec.toNat_inj]

theorem desiredPowerOf_eq_iff (w : Word) (dp : Power) :
    desiredPowerOf w = dp ↔ w.toNat / 2 ^ 15 % 2 = dp.bit.toNat := by
  rw [← desiredPowerOf_toNat]
  exact ⟨fun h => h ▸ rfl, power_bit_inj⟩

theorem setBrightnessOf_eq_iff (w : Word) (sb : Bool) :
    setBrightnessOf w = sb ↔ w.toNat / 2 ^ 14 % 2 = (boolBit sb).toNat := by
  rw [← setBrightnessOf_toNat]
  exact ⟨fun h => h ▸ rfl, boolBit_inj⟩

theorem desiredBrightnessOf_eq_iff (w : Word) (db : Brightness) :
    desiredBrightnessOf w = db ↔ w.toNat % 128 = db.toNat := by
  rw [← desiredBrightnessOf_toNat, BitVec.toNat_inj]

theorem operationOf_eq_iff (w : Word) (op : Operation) :
    operationOf w = op ↔ w.toNat / 2 ^ 12 % 4 = op.code.toNat := by
  rw [← operationOf_toNat]
  exact ⟨fun h => h ▸ rfl, operation_code_inj⟩

theorem subIndexOf_eq_iff (w : Word) (sub : Bool) :
    subIndexOf w = sub ↔ w.toNat / 2 ^ 8 % 2 = (boolBit sub).toNat := by
  rw [← subIndexOf_toNat]
  exact ⟨fun h => h ▸ rfl, boolBit_inj⟩

/-- The fields of format R fill the word: what they hold, with the opcode 1 and the rest 0, is what it is. -/
theorem formatR_fields_iff (w : Word) (ch : Channel) (dp : Power) (sb : Bool) (db : Brightness) :
    ((w.toNat / 2 ^ 28 = 1 ∧ w &&& reservedR = 0) ∧
        channelOf w = ch ∧ desiredPowerOf w = dp ∧ setBrightnessOf w = sb ∧ desiredBrightnessOf w = db) ↔
      encode (.requestState ch dp sb db) = w := by
  rw [reservedR_clear_iff, channelOf_eq_iff, desiredPowerOf_eq_iff, setBrightnessOf_eq_iff,
    desiredBrightnessOf_eq_iff, ← BitVec.toNat_inj, encode_requestState_toNat]
  have := ch.isLt
  have := dp.bit.isLt
  have := (boolBit sb).isLt
  have := db.isLt
  omega

/-- The same of format T, with the opcode given. -/
theorem formatT_fields_iff (o : BitVec 4) (w : Word) (ch : Channel) (op : Operation) (sub : Bool) :
    ((w.toNat / 2 ^ 28 = o.toNat ∧ w &&& reservedT = 0) ∧
        channelOf w = ch ∧ operationOf w = op ∧ subIndexOf w = sub) ↔
      formatT o ch op sub = w := by
  rw [reservedT_clear_iff, channelOf_eq_iff, operationOf_eq_iff, subIndexOf_eq_iff, ← BitVec.toNat_inj,
    formatT_toNat]
  have := ch.isLt
  have := op.code.isLt
  have := (boolBit sub).isLt
  omega

/-- A word decodes to a command exactly when it is that command's encoding. -/
theorem decode_eq_ok_iff {w : Word} {i : Instr} : decode w = .ok i ↔ encode i = w := by
  cases i with
  | requestState ch dp sb db => exact (decode_requestState_iff w ch dp sb db).trans (formatR_fields_iff w ch dp sb db)
  | lookup ch op sub => exact (decode_lookup_iff w ch op sub).trans (formatT_fields_iff 2 w ch op sub)
  | encode ch op sub => exact (decode_encode_iff w ch op sub).trans (formatT_fields_iff 3 w ch op sub)

/-- Settles O1: `decode_eq_ok_iff` at the command's own word. -/
theorem decodeOfEncodeIsIdentity : Obligations.DecodeOfEncodeIsIdentity := fun _ => decode_eq_ok_iff.2 rfl

/-- Settles O2: the other direction. -/
theorem encodeOfDecodedWordIsTheWord : Obligations.EncodeOfDecodedWordIsTheWord := fun _ _ => decode_eq_ok_iff.1

/-- Settles O5: each word is the encoding of the command the table gives it. -/
theorem exampleWordsDecode : Obligations.ExampleWordsDecode := by
  refine ⟨?_, ?_, ?_, ?_, ?_, ?_, ?_, ?_, ?_⟩ <;> exact decode_eq_ok_iff.2 (by decide)

/-! ## The operands of a word -/

theorem power_eq_on_iff (dp : Power) : dp = .on ↔ dp.bit.toNat = 1 := by cases dp <;> decide

/-- Settles O4: a word that decodes has the fields the decoder reads. -/
theorem decodedOperandsAreTheFields : Obligations.DecodedOperandsAreTheFields := by
  constructor
  · intro w ch dp sb db h
    obtain ⟨-, rfl, rfl, rfl, rfl⟩ := (decode_requestState_iff w ch dp sb db).1 h
    rw [power_eq_on_iff, ← Bool.toNat_eq_one, ← boolBit_toNat, desiredPowerOf_toNat, setBrightnessOf_toNat]
    exact ⟨channelOf_toNat w, .rfl, .rfl, desiredBrightnessOf_toNat w⟩
  · intro w ch op sub h
    obtain ⟨rfl, rfl, rfl⟩ : channelOf w = ch ∧ operationOf w = op ∧ subIndexOf w = sub :=
      h.elim (fun h => ((decode_lookup_iff w ch op sub).1 h).2) fun h => ((decode_encode_iff w ch op sub).1 h).2
    rw [← Bool.toNat_eq_one, ← boolBit_toNat, subIndexOf_toNat]
    exact ⟨channelOf_toNat w, operationOf_toNat w, .rfl⟩

/-! ## Which words are commands -/

theorem decode_requestState_exists_iff (w : Word) :
    (∃ ch dp sb db, decode w = .ok (.requestState ch dp sb db)) ↔ w.toNat / 2 ^ 28 = 1 ∧ w &&& reservedR = 0 :=
  ⟨fun ⟨ch, dp, sb, db, h⟩ => ((decode_requestState_iff w ch dp sb db).1 h).1,
    fun h => ⟨_, _, _, _, (decode_requestState_iff w _ _ _ _).2 ⟨h, rfl, rfl, rfl, rfl⟩⟩⟩

theorem decode_lookup_exists_iff (w : Word) :
    (∃ ch op sub, decode w = .ok (.lookup ch op sub)) ↔ w.toNat / 2 ^ 28 = 2 ∧ w &&& reservedT = 0 :=
  ⟨fun ⟨ch, op, sub, h⟩ => ((decode_lookup_iff w ch op sub).1 h).1,
    fun h => ⟨_, _, _, (decode_lookup_iff w _ _ _).2 ⟨h, rfl, rfl, rfl⟩⟩⟩

theorem decode_encode_exists_iff (w : Word) :
    (∃ ch op sub, decode w = .ok (.encode ch op sub)) ↔ w.toNat / 2 ^ 28 = 3 ∧ w &&& reservedT = 0 :=
  ⟨fun ⟨ch, op, sub, h⟩ => ((decode_encode_iff w ch op sub).1 h).1,
    fun h => ⟨_, _, _, (decode_encode_iff w _ _ _).2 ⟨h, rfl, rfl, rfl⟩⟩⟩

/-- Settles O3: the operands are whatever the fields hold. -/
theorem decodeAcceptsExactlyLegalWords : Obligations.DecodeAcceptsExactlyLegalWords := fun w =>
  ⟨decode_requestState_exists_iff w, decode_lookup_exists_iff w, decode_encode_exists_iff w⟩

/-- A word that is no command's is refused. -/
theorem decode_error_of_illegal {w : Word} (hR : ¬ (w.toNat / 2 ^ 28 = 1 ∧ w &&& reservedR = 0))
    (hT : ¬ ((w.toNat / 2 ^ 28 = 2 ∨ w.toNat / 2 ^ 28 = 3) ∧ w &&& reservedT = 0)) : ∃ e, decode w = .error e := by
  cases h : decode w with
  | error e => exact ⟨e, rfl⟩
  | ok i =>
    cases i with
    | requestState ch dp sb db => exact absurd ((decode_requestState_exists_iff w).1 ⟨ch, dp, sb, db, h⟩) hR
    | lookup ch op sub => exact absurd (((decode_lookup_exists_iff w).1 ⟨ch, op, sub, h⟩).imp_left .inl) hT
    | encode ch op sub => exact absurd (((decode_encode_exists_iff w).1 ⟨ch, op, sub, h⟩).imp_left .inr) hT

/-! ## The step that decodes -/

theorem step_exec {s : State} (he : s.nextEvent = .sequencer) (hp : s.phase = .exec) {i : Instr}
    (h : decode s.cmd = .ok i) : step s = exec i s.takeEvent :=
  (step_eq s he).trans (sequencerStep_exec (by simpa) (by simpa))

theorem step_illegal {s : State} (he : s.nextEvent = .sequencer) (hp : s.phase = .exec) {e : DecodeError}
    (h : decode s.cmd = .error e) : step s = .next (illegalCommand s.takeEvent) :=
  (step_eq s he).trans (sequencerStep_illegal (by simpa) (e := e) (by simpa))

/-- Settles O45: the step goes by what `CMD` decodes to, which goes by its opcode and its reserved bits. -/
theorem everyWordIsACommandOrIllegal : Obligations.EveryWordIsACommandOrIllegal := by
  intro s he hp opcode
  refine ⟨fun ho hm => ?_, fun ho hm => ?_, fun ho hm => ?_, fun hillegal => ?_⟩
  · obtain ⟨ch, dp, sb, db, h⟩ := (decode_requestState_exists_iff s.cmd).2 ⟨ho, hm⟩
    exact ⟨ch, dp, sb, db, step_exec he hp h⟩
  · obtain ⟨ch, op, sub, h⟩ := (decode_lookup_exists_iff s.cmd).2 ⟨ho, hm⟩
    exact ⟨ch, op, sub, step_exec he hp h⟩
  · obtain ⟨ch, op, sub, h⟩ := (decode_encode_exists_iff s.cmd).2 ⟨ho, hm⟩
    exact ⟨ch, op, sub, step_exec he hp h⟩
  · obtain ⟨e, h⟩ : ∃ e, decode s.cmd = .error e := by
      refine decode_error_of_illegal ?_ ?_
      · rintro ⟨ho, hm⟩
        obtain h | h | ⟨-, hr⟩ | ⟨h, -⟩ := hillegal
        · omega
        · omega
        · exact hr hm
        · exact h ho
      · rintro ⟨ho, hm⟩
        obtain h | h | ⟨h, -⟩ | ⟨-, hr⟩ := hillegal
        · omega
        · omega
        · omega
        · exact hr hm
    rw [step_illegal he hp h, ← takeEvent_status]
    rfl

end Sys2Proof.Proofs
end

section
/-! The words written to the block and by it: the assembler's command lines (O6) and the payload (O16). -/

namespace Sys2Proof.Proofs

open Sys2Proof.Machine

/-! ## The assembler's lines -/

/-- A field put into the clear low end of a word adds its value. -/
theorem or_shiftedField_toNat {w : Word} {v n : Nat} (hw : w.toNat = v) (x : BitVec n) (k : Nat) (hk : n + k ≤ 32)
    (hv : v % 2 ^ (n + k) = 0) : (w ||| x.setWidth 32 <<< k).toNat = v + x.toNat * 2 ^ k := by
  have hx : x.toNat * 2 ^ k < 2 ^ (n + k) :=
    Nat.pow_add .. ▸ Nat.mul_lt_mul_of_pos_right x.isLt (Nat.two_pow_pos k)
  have hle : 2 ^ (n + k) ≤ 2 ^ 32 := Nat.pow_le_pow_right (by decide) hk
  obtain ⟨a, rfl⟩ := Nat.dvd_of_mod_eq_zero hv
  rw [BitVec.toNat_or, BitVec.toNat_shiftLeft, BitVec.toNat_setWidth_of_le (by omega), Nat.shiftLeft_eq,
    Nat.mod_eq_of_lt (hx.trans_le hle), hw, Nat.two_pow_add_eq_or_of_lt hx]

theorem formatT_eq_or {w : Word} (o : BitVec 4) (hw : w.toNat = o.toNat * 2 ^ 28) (ch : Channel) (op : Operation)
    (sub : Bool) :
    formatT o ch op sub =
      w ||| ch.setWidth 32 <<< 16 ||| op.code.setWidth 32 <<< 12 ||| (boolBit sub).setWidth 32 <<< 8 := by
  have hch := or_shiftedField_toNat hw ch 16 (by decide) (by omega)
  have hop := or_shiftedField_toNat hch op.code 12 (by decide) (by omega)
  have hsub := or_shiftedField_toNat hop (boolBit sub) 8 (by decide) (by omega)
  rw [← BitVec.toNat_inj, hsub, formatT_toNat]

theorem encode_requestState_eq_or {w : Word} (hw : w.toNat = 2 ^ 28) (ch : Channel) (dp : Power) (sb : Bool)
    (db : Brightness) :
    encode (.requestState ch dp sb db) =
      w ||| ch.setWidth 32 <<< 16 ||| dp.bit.setWidth 32 <<< 15 ||| (boolBit sb).setWidth 32 <<< 14 |||
        db.setWidth 32 <<< 0 := by
  have hch := or_shiftedField_toNat hw ch 16 (by decide) (by decide)
  have hdp := or_shiftedField_toNat hch dp.bit 15 (by decide) (by omega)
  have hsb := or_shiftedField_toNat hdp (boolBit sb) 14 (by decide) (by omega)
  have hdb := or_shiftedField_toNat hsb db 0 (by decide) (by omega)
  rw [← BitVec.toNat_inj, hdb, encode_requestState_toNat, Nat.pow_zero, Nat.mul_one]

/-- Settles O6: a command's line spells out the encoder's fields, and a field that is 0 adds nothing. -/
theorem assemblerLinesWriteEncodedCommands : Obligations.AssemblerLinesWriteEncodedCommands := by
  refine ⟨fun ch dp => ?_, fun ch dp b => ?_, fun ch op sub => ⟨?_, ?_⟩, fun k v => ⟨rfl, rfl⟩, fun more => ?_⟩
  · simp [encode_requestState_eq_or (w := 0x1000_0000) rfl, expandLine, boolBit]
  · simp [encode_requestState_eq_or (w := 0x1000_0000) rfl, expandLine, boolBit]
  · rw [encode, formatT_eq_or (w := 0x2000_0000) 2 rfl]
    rfl
  · rw [encode, formatT_eq_or (w := 0x3000_0000) 3 rfl]
    rfl
  · exact ⟨List.cons_ne_nil _ _, fun e => List.eq_of_mem_replicate⟩

/-! ## The payload -/

/-- Settles O16: the code bytes are the code word's four fields of eight bits. -/
theorem payloadFormat : Obligations.PayloadFormat := by
  intro code
  refine ⟨_, _, _, _, rfl, ?_⟩
  rw [field_toNat, field_toNat, field_toNat, field_toNat]
  omega

end Sys2Proof.Proofs
end

section
/-! The row word as its fields: the `ROW` directive writes them (O7), a well-formed word is them (O8), and the block is
built from an image of such words (O9). -/

namespace Sys2Proof.Proofs

open Sys2Proof.Machine

/-! ## The fields of a row word -/

theorem rowCount_getLsbD (w : Word) (k : Nat) {b : Nat} (hb : b < 4) :
    (rowCount w k).getLsbD b = w.getLsbD (24 - 4 * k + b) := by
  simp [rowCount, hb]

/-- A word is its valid bit, its length and its seven counts (30_encoding.md R49). -/
theorem rowFields_ext {w v : Word} (hvalid : rowValid w = rowValid v) (hlen : rowLen w = rowLen v)
    (hcount : ∀ k < 7, rowCount w k = rowCount v k) : w = v := by
  refine BitVec.eq_of_getLsbD_eq fun i hi => ?_
  rcases Nat.lt_or_ge i 28 with h | h
  · have hbit := congrArg (·.getLsbD (i % 4)) (hcount (6 - i / 4) (by omega))
    have hi : 24 - 4 * (6 - i / 4) + i % 4 = i := by omega
    simpa only [rowCount_getLsbD _ _ (Nat.mod_lt i four_pos), hi] using hbit
  · rcases Nat.lt_or_ge i 31 with h' | h'
    · have hbit := congrArg (·.getLsbD (i - 28)) (BitVec.eq_of_toNat_eq hlen)
      have hi : 28 + (i - 28) = i := by omega
      simpa only [BitVec.getLsbD_extractLsb', hi, show i - 28 < 3 by omega, decide_true, Bool.true_and] using hbit
    · obtain rfl : i = 31 := by omega
      exact hvalid

theorem rowCount_or (x y : Word) (k : Nat) : rowCount (x ||| y) k = rowCount x k ||| rowCount y k :=
  BitVec.extractLsb'_or ..

theorem rowLen_le (w : Word) : rowLen w ≤ 7 := Nat.le_of_lt_succ (w.extractLsb' 28 3).isLt

theorem rowOf_length (w : Word) : (rowOf w).length = rowLen w := by simp [rowOf]

theorem rowOf_getElem (w : Word) {k : Nat} (h : k < (rowOf w).length) : (rowOf w)[k] = rowCount w k := by
  simp [rowOf]

theorem rowWordWf_iff (w : Word) :
    rowWordWf w = true ↔
      w = 0 ∨ rowValid w = true ∧ 1 ≤ rowLen w ∧
        ∀ k < 7, (k < rowLen w → rowCount w k ≠ 0) ∧ (rowLen w ≤ k → rowCount w k = 0) := by
  have hcount (k : Nat) :
      (if k < rowLen w then rowCount w k != 0 else rowCount w k == 0) = true ↔
        (k < rowLen w → rowCount w k ≠ 0) ∧ (rowLen w ≤ k → rowCount w k = 0) := by
    by_cases h : k < rowLen w
    · simp [h, Nat.not_le.2 h]
    · simp [h, Nat.not_lt.1 h]
  simp only [rowWordWf, Bool.or_eq_true, beq_iff_eq, Bool.and_eq_true, decide_eq_true_eq, List.all_eq_true,
    List.mem_range, hcount, and_assoc]

/-! ## The `ROW` directive's word -/

theorem rowCount_place_same (c : PulseCount) (k : Nat) : rowCount (c.setWidth 32 <<< (24 - 4 * k)) k = c := by
  refine BitVec.eq_of_getLsbD_eq fun b hb => ?_
  rw [rowCount_getLsbD _ _ hb, BitVec.getLsbD_shiftLeft, Nat.add_sub_cancel_left, BitVec.getLsbD_setWidth]
  simp [show 24 - 4 * k + b < 32 by omega, show b < 32 by omega]

theorem rowCount_place_other (c : PulseCount) {j k : Nat} (hj : j < 7) (hk : k < 7) (h : j ≠ k) :
    rowCount (c.setWidth 32 <<< (24 - 4 * j)) k = 0 := by
  refine BitVec.eq_of_getLsbD_eq fun b hb => ?_
  rw [rowCount_getLsbD _ _ hb, BitVec.getLsbD_shiftLeft, BitVec.getLsbD_setWidth]
  rcases Nat.lt_or_gt_of_ne h with h | h
  · simp; omega
  · rw [BitVec.getLsbD_of_ge c _ (by omega)]
    simp

theorem rowCountBits_header (row : List PulseCount) (j : Nat) {i : Nat} (hi : 28 ≤ i) :
    (rowCountBits row j).getLsbD i = false := by
  induction row generalizing j with
  | nil => simp [rowCountBits]
  | cons c cs ih =>
    rw [rowCountBits, BitVec.getLsbD_or, ih, BitVec.getLsbD_shiftLeft, BitVec.getLsbD_setWidth,
      BitVec.getLsbD_of_ge c _ (by omega)]
    simp

theorem rowCountBits_before (row : List PulseCount) {j k : Nat} (hj : row.length + j ≤ 7) (hk : k < j) :
    rowCount (rowCountBits row j) k = 0 := by
  induction row generalizing j with
  | nil => simp [rowCountBits, rowCount]
  | cons c cs ih =>
    rw [List.length_cons] at hj
    rw [rowCountBits, rowCount_or, rowCount_place_other c (by omega) (by omega) hk.ne', ih (by omega) (by omega)]
    rfl

theorem rowCount_rowCountBits (row : List PulseCount) {j k : Nat} (hj : row.length + j ≤ 7) (hk : j + k < 7) :
    rowCount (rowCountBits row j) (j + k) = row.getD k 0 := by
  induction row generalizing j k with
  | nil => simp [rowCountBits, rowCount]
  | cons c cs ih =>
    rw [List.length_cons] at hj
    rw [rowCountBits, rowCount_or]
    cases k with
    | zero => rw [Nat.add_zero, rowCount_place_same, rowCountBits_before cs (by omega) (by omega)]; simp
    | succ k =>
      rw [rowCount_place_other c (by omega) hk (by omega), show j + (k + 1) = j + 1 + k by omega,
        ih (by omega) (by omega)]
      simp

/-- The valid bit and the length of a `ROW` word, before its counts. -/
theorem rowHeader_fields :
    ∀ n ≤ 7, rowValid (0x8000_0000 ||| BitVec.ofNat 32 n <<< 28) = true ∧
      rowLen (0x8000_0000 ||| BitVec.ofNat 32 n <<< 28) = n ∧
      ∀ k < 7, rowCount (0x8000_0000 ||| BitVec.ofNat 32 n <<< 28) k = 0 := by decide

section RowWord

variable {row : List PulseCount} (h : row.length ≤ 7)
include h

theorem rowValid_rowWord : rowValid (rowWord row) = true := by
  obtain ⟨hvalid, -, -⟩ := rowHeader_fields row.length h
  rw [rowWord, rowValid, BitVec.getLsbD_or, Bool.or_eq_true]
  exact .inl hvalid

theorem rowLen_rowWord : rowLen (rowWord row) = row.length := by
  have hzero : (rowCountBits row 0).extractLsb' 28 3 = 0#3 := by
    ext i hi
    simpa using rowCountBits_header row 0 (by omega)
  obtain ⟨-, hlen, -⟩ := rowHeader_fields row.length h
  rw [rowWord, rowLen, BitVec.extractLsb'_or, hzero, BitVec.or_zero]
  exact hlen

theorem rowCount_rowWord {k : Nat} (hk : k < 7) : rowCount (rowWord row) k = row.getD k 0 := by
  obtain ⟨-, -, hcount⟩ := rowHeader_fields row.length h
  have hbits := rowCount_rowCountBits row (j := 0) (k := k) h (by omega)
  rw [Nat.zero_add] at hbits
  rw [rowWord, rowCount_or, hcount k hk, hbits]
  simp

theorem rowOf_rowWord : rowOf (rowWord row) = row := by
  refine List.ext_getElem ((rowOf_length _).trans (rowLen_rowWord h)) fun k _ hk => ?_
  rw [rowOf_getElem, rowCount_rowWord h (by omega), List.getD_eq_getElem _ _ hk]

theorem rowWord_wf (h1 : 1 ≤ row.length) (hc : ∀ c ∈ row, c ≠ 0) : rowWordWf (rowWord row) = true := by
  refine (rowWordWf_iff _).2 (.inr ⟨rowValid_rowWord h, ?_, fun k hk => ?_⟩) <;> rw [rowLen_rowWord h]
  · exact h1
  · rw [rowCount_rowWord h hk]
    refine ⟨fun hlt => ?_, List.getD_eq_default _ _⟩
    rw [List.getD_eq_getElem _ _ hlt]
    exact hc _ (List.getElem_mem hlt)

end RowWord

/-- Settles O7: the directive's word has the fields of the row given. -/
theorem rowDirectiveReadsBack : Obligations.RowDirectiveReadsBack := fun _ h1 h7 hc =>
  ⟨rowWord_wf h7 h1 hc, rowValid_rowWord h7, rowOf_rowWord h7⟩

/-- The counts of a well-formed word's row are all its counts: those past the row are 0. -/
theorem rowOf_getD {w : Word} (hzero : ∀ k < 7, rowLen w ≤ k → rowCount w k = 0) {k : Nat} (hk : k < 7) :
    (rowOf w).getD k 0 = rowCount w k := by
  rcases Nat.lt_or_ge k (rowOf w).length with h | h
  · rw [List.getD_eq_getElem _ _ h, rowOf_getElem]
  · rw [List.getD_eq_default _ _ h, hzero k hk (rowOf_length w ▸ h)]

/-- Settles O8: a well-formed word and the `ROW` word of its row have the same fields. -/
theorem wellFormedRowWordIsItsRow : Obligations.WellFormedRowWordIsItsRow := by
  intro w
  have hlen := rowOf_length w
  have h7 := hlen ▸ rowLen_le w
  refine ⟨hlen.trans (field_toNat w 28 3), fun k h => ?_, fun hwf hne => ?_⟩
  · rw [rowOf_getElem]
    exact field_toNat w (24 - 4 * k) 4
  · obtain ⟨hvalid, h1, hcount⟩ := ((rowWordWf_iff w).1 hwf).resolve_left hne
    refine ⟨rowFields_ext ?_ ?_ fun k hk => ?_, hlen ▸ h1, h7, fun c hc => ?_⟩
    · rw [rowValid_rowWord h7, hvalid]
    · rw [rowLen_rowWord h7, hlen]
    · rw [rowCount_rowWord h7 hk, rowOf_getD (fun k hk => (hcount k hk).2) hk]
    · obtain ⟨k, hk, rfl⟩ := List.getElem_of_mem hc
      rw [rowOf_getElem]
      exact (hcount k (by omega)).1 (hlen ▸ hk)

/-! ## Construction from an image -/

theorem pulseCount_pos_iff (c : PulseCount) : 1 ≤ c.toNat ↔ c ≠ 0 :=
  Nat.one_le_iff_ne_zero.trans (BitVec.toNat_inj (y := 0)).not

/-- Settles O9: with the other parameters in range, the construction premise is the image's form. -/
theorem constructionNeedsWellFormedImage : Obligations.ConstructionNeedsWellFormedImage := by
  intro c hn hd wellFormed
  have hwf : c.wf = true ↔ wellFormed := by
    simp only [Config.wf, Memory.wf, hn, hd, decide_true, Bool.true_and, Bool.and_true, Bool.and_eq_true, beq_iff_eq,
      List.all_eq_true, rowWordWf_iff, pulseCount_pos_iff, wellFormed]
    exact Iff.rfl
  exact ⟨fun h => if_pos (hwf.2 h), fun h => if_neg (mt hwf.1 h)⟩

end Sys2Proof.Proofs
end

/-! # The pulse-table family: the indexer, `LOOKUP`, and the requests a missing or too long row ends -/

section
/-! The indexer: the six slots of a channel, their indices, which no two triples share (O11), and the words it answers
(O10), which `LOOKUP` reports (O17). -/

namespace Sys2Proof.Proofs

open Sys2Proof.Machine

/-! ## The row slots and their indices -/

/-- The table of 40_pulse_table.md R61: each operation and sub-index that can hold a row, with its slot. -/
def rowSlots : List (Operation × Bool × Nat) :=
  [(.on, false, 0), (.off, false, 1), (.dimUp, false, 2), (.dimUp, true, 3), (.dimDown, false, 4), (.dimDown, true, 5)]

theorem mem_rowSlots_iff (op : Operation) (sub : Bool) (slot : Nat) :
    (op, sub, slot) ∈ rowSlots ↔ slotOf op sub = some slot := by
  cases op <;> cases sub <;> simp [rowSlots, slotOf, eq_comm]

theorem rowSlots_slot_lt : ∀ x ∈ rowSlots, x.2.2 < 6 := by decide

theorem rowSlots_slot_inj : ∀ x ∈ rowSlots, ∀ x' ∈ rowSlots, x.2.2 = x'.2.2 → x = x' := by decide

/-- A channel's block of six indices is its own, so an index tells the channel and the slot. -/
theorem romIndex_inj {ch ch' : Channel} {slot slot' : Nat} (hs : slot < 6) (hs' : slot' < 6)
    (h : romIndex ch slot = romIndex ch' slot') : ch = ch' ∧ slot = slot' := by
  unfold romIndex slotsPerChannel at h
  exact ⟨BitVec.eq_of_toNat_eq (by omega), by omega⟩

theorem romIndex_lt {ch : Channel} {slot n : Nat} (hs : slot < 6) (hc : ch.toNat < n) : romIndex ch slot < 6 * n := by
  unfold romIndex slotsPerChannel
  omega

theorem romIndex_rowSlots_inj {ch ch' : Channel} {x x' : Operation × Bool × Nat} (hx : x ∈ rowSlots)
    (hx' : x' ∈ rowSlots) (h : romIndex ch x.2.2 = romIndex ch' x'.2.2) : ch = ch' ∧ x = x' :=
  (romIndex_inj (rowSlots_slot_lt x hx) (rowSlots_slot_lt x' hx') h).imp_right (rowSlots_slot_inj x hx x' hx')

/-- Settles O11: a triple is its channel and its entry of the slot table, which its index tells. -/
theorem lookupNeverAliasesRows : Obligations.LookupNeverAliasesRows := by
  intro ch ch' op op' sub sub' slot slot' hslot hslot'
  have hx := (mem_rowSlots_iff op sub slot).2 hslot
  have hx' := (mem_rowSlots_iff op' sub' slot').2 hslot'
  refine ⟨fun h => ?_, fun n hc => romIndex_lt (rowSlots_slot_lt _ hx) hc⟩
  obtain ⟨hch, hpair⟩ := romIndex_rowSlots_inj hx hx' h
  cases hpair
  exact ⟨hch, rfl, rfl⟩

/-! ## The words the indexer reads and answers -/

theorem romRead_eq_getD (c : Config) (i : Nat) : romRead c i = c.pulseTable[i]?.getD 0 := List.getD_eq_getElem?_getD

theorem romRead_of_getElem? {c : Config} {i : Nat} {w : Word} (h : c.pulseTable[i]? = some w) : romRead c i = w := by
  rw [romRead_eq_getD, h, Option.getD_some]

/-- A valid word was read from the table: past its end the model reads an empty slot. -/
theorem romRead_eq_valid_iff {c : Config} {i : Nat} {w : Word} (hv : rowValid w = true) :
    romRead c i = w ↔ c.pulseTable[i]? = some w := by
  refine ⟨fun h => ?_, romRead_of_getElem?⟩
  rw [romRead_eq_getD] at h
  cases hi : c.pulseTable[i]? with
  | some v => rw [← h, hi, Option.getD_some]
  | none =>
    rw [hi, Option.getD_none] at h
    exact absurd (h ▸ hv) (by decide)

/-- A hit is a valid word in the slot of a channel that exists. -/
theorem lookupRow_eq_some_iff (c : Config) (ch : Channel) (op : Operation) (sub : Bool) (w : Word) :
    lookupRow c ch op sub = some w ↔
      ch.toNat < c.numLights ∧ rowValid w = true ∧
        ∃ slot, slotOf op sub = some slot ∧ romRead c (romIndex ch slot) = w := by
  unfold lookupRow
  rw [Option.ite_none_left_eq_some, Nat.not_le]
  refine and_congr_right fun _ => ?_
  cases slotOf op sub with
  | none => simp
  | some slot =>
    simp only [Option.ite_none_right_eq_some, Option.some.injEq, exists_eq_left']
    exact and_congr_left fun h => by rw [h]

/-- Settles O10: a hit by its slot, with the slots as the table lists them and the word as the image holds it. -/
theorem lookupHitsExactlyConfiguredSlots : Obligations.LookupHitsExactlyConfiguredSlots := by
  refine ⟨fun c ch op sub w => ?_, fun c i w => romRead_of_getElem?, fun ch ch' x x' => romIndex_rowSlots_inj⟩
  rw [lookupRow_eq_some_iff]
  refine and_congr_right fun _ => and_congr_right fun hv => exists_congr fun slot => ?_
  exact and_congr (mem_rowSlots_iff op sub slot).symm (romRead_eq_valid_iff hv)

/-! ## `LOOKUP` -/

/-- Settles O17: a hit and a miss each finish with their own result and code. -/
theorem lookupCompletes : Obligations.LookupCompletes := by
  intro s ch op sub
  refine congrArg Host.Outcome.next ?_
  unfold lookupCommand
  cases lookupRow s.cfg ch op sub with
  | none => rfl
  | some w => rfl

end Sys2Proof.Proofs
end

section
/-! Requests that end in their `EXEC` step for want of a usable row: of the power leg (O23) and of a dim sequence
(O26). -/

namespace Sys2Proof.Proofs

open Sys2Proof.Machine Sys2Proof.Safety

theorem powerOperation_eq_ite (dp : Power) : powerOperation dp = if dp = .on then .on else .off := by
  cases dp <;> rfl

/-- A request on a channel that exists, ended once its sequence was chosen, has the entry's word as its result. -/
theorem finishRequest_latchRequest {s : State} {ch : Channel} (hc : ch.toNat < s.cfg.numLights) (dp : Power)
    (sb : Bool) (db : Brightness) (e : ErrorCode) (g : Leg) (o : Operation) :
    finishRequest e { latchRequest ch dp sb db s with leg := g, op := o } =
      { requestEnded s ch dp sb db e (lightWord (s.light ch)) with leg := g, op := o } := by
  have hsnap : s.snapshot ch = lightWord (s.light ch) := if_pos hc
  rw [← hsnap]
  rfl

/-- Settles O23: the power leg is begun, and its sequence has no usable row. -/
theorem powerChangeWithoutUsableRowEnds : Obligations.PowerChangeWithoutUsableRowEnds := by
  intro s ch dp sb db hc hb hp hrow
  rw [← powerOperation_eq_ite] at hrow ⊢
  have hbegin := beginRequest_power (s := latchRequest ch dp sb db s) hc hb hp
  exact congrArg Host.Outcome.next
    ((hbegin.trans (startOnOff_ends hrow)).trans (finishRequest_latchRequest hc ..))

/-- Settles O26: with the power as it is the brightness leg is planned, and its dim sequence lacks a usable row. -/
theorem dimRequestErrorOrder : Obligations.DimRequestErrorOrder := by
  intro s ch db b o hc h2 h64 hne hrow
  have hbegin := beginRequest_plan (s := latchRequest ch (s.light ch).power true db s) hc (fun _ => h64) rfl
  have hplan := planBrightness_dim (s := latchRequest ch (s.light ch).power true db s) rfl hne h2
  exact congrArg Host.Outcome.next
    (((hbegin.trans hplan).trans (startDim_ends hrow)).trans (finishRequest_latchRequest hc ..))

end Sys2Proof.Proofs
end

/-! # The encoder family: the code word of a row, what is sent of it, and `ENCODE` -/

section
/-! The code word of a row: which rows have one (O12), its bits one by one (O13), their shape (O14), and the row they
give back (O15). The last two see the bits below 28 as a list of distances below the start of the cursor. -/

namespace Sys2Proof.Proofs

open Sys2Proof.Machine

variable {row : List PulseCount} {code : Word}

/-! ## The width and the bits, by the encoder's loop -/

/-- Settles O12: the cursor ends the row's width below 27. -/
theorem rowTooLongExactlyWhenCursorUnderflows : Obligations.RowTooLongExactlyWhenCursorUnderflows := by
  intro row
  have hwidth := encodeRow_eq_none_iff row
  refine ⟨hwidth, hwidth.trans ?_⟩
  rw [placeRow_cursor]
  omega

theorem codeInit_getLsbD (p : Nat) : codeInit.getLsbD p = true ↔ p = 30 := by
  rw [show codeInit = BitVec.twoPow 32 30 from rfl, BitVec.getLsbD_twoPow]
  simp [eq_comm]

/-- The loop's bits on a row that fits: `CODE_INIT`'s, and the pulses below the start of the cursor. -/
theorem encodeRow_getLsbD (h : encodeRow row = some code) (p : Nat) :
    code.getLsbD p = true ↔
      p = 30 ∨
        ∃ i k : Nat, ∃ h : i < row.length, k < row[i].toNat ∧ p + rowWidth (row.take i) + 2 * k = 27 := by
  obtain ⟨hfits, rfl⟩ := (encodeRow_eq_some_iff row code).1 h
  rw [placeRow_bits row codeInit cursorInit (by unfold cursorInit; omega) (by decide), codeInit_getLsbD]
  unfold cursorInit
  norm_cast

/-- Settles O13: a row that fits has the loop's word, with the loop's bits. -/
theorem encodedBitsAreThePulses : Obligations.EncodedBitsAreThePulses := by
  intro row
  refine ⟨(encodeRow_eq_none_iff row).2, fun hfits => ?_⟩
  have hcode := (encodeRow_eq_some_iff row _).2 ⟨hfits, rfl⟩
  exact ⟨_, hcode, encodeRow_getLsbD hcode⟩

/-! ## The pulses of a row as distances below the start of the cursor -/

/-- How far below the start of the cursor the row's pulses stand, from the first pulse on (41_encoder.md R69, R70). -/
def pulseOffsets : List PulseCount → List Nat
  | [] => []
  | c :: cs => (List.range c.toNat).map (2 * ·) ++ (pulseOffsets cs).map (2 * c.toNat + 1 + ·)

theorem mem_pulseOffsets_cons (c : PulseCount) (cs : List PulseCount) (d : Nat) :
    d ∈ pulseOffsets (c :: cs) ↔
      (∃ k < c.toNat, 2 * k = d) ∨ ∃ e ∈ pulseOffsets cs, 2 * c.toNat + 1 + e = d := by
  simp [pulseOffsets]

theorem rowWidth_take_succ (c : PulseCount) (cs : List PulseCount) (i : Nat) :
    rowWidth ((c :: cs).take (i + 1)) = 2 * c.toNat + 1 + rowWidth (cs.take i) := by
  rw [List.take_succ_cons, rowWidth_cons]

theorem mem_pulseOffsets_iff (row : List PulseCount) (d : Nat) :
    d ∈ pulseOffsets row ↔
      ∃ i k : Nat, ∃ h : i < row.length, k < row[i].toNat ∧ rowWidth (row.take i) + 2 * k = d := by
  induction row generalizing d with
  | nil => simp [pulseOffsets]
  | cons c cs ih =>
    rw [mem_pulseOffsets_cons]
    constructor
    · rintro (⟨k, hk, rfl⟩ | ⟨e, he, rfl⟩)
      · exact ⟨0, k, Nat.zero_lt_succ _, hk, by simp [rowWidth]⟩
      · obtain ⟨i, k, hi, hk, rfl⟩ := (ih e).1 he
        exact ⟨i + 1, k, Nat.succ_lt_succ hi, hk, by rw [rowWidth_take_succ, Nat.add_assoc]⟩
    · rintro ⟨_ | i, k, hi, hk, rfl⟩
      · exact .inl ⟨k, hk, by simp [rowWidth]⟩
      · refine .inr ⟨_, (ih _).2 ⟨i, k, Nat.lt_of_succ_lt_succ hi, hk, rfl⟩, ?_⟩
        rw [rowWidth_take_succ]
        omega

theorem pulseOffsets_length (row : List PulseCount) :
    (pulseOffsets row).length = (row.map fun c => c.toNat).sum := by
  induction row with
  | nil => rfl
  | cons c cs ih => simp [pulseOffsets, ih]

/-- A count's pulses stand before those of the counts after it. -/
theorem pulseOffsets_nodup (row : List PulseCount) : (pulseOffsets row).Nodup := by
  induction row with
  | nil => exact List.nodup_nil
  | cons c cs ih =>
    refine List.nodup_append.2
      ⟨List.nodup_range.map fun a b h => by omega, ih.map fun a b h => by omega, fun a ha b hb => ?_⟩
    obtain ⟨k, hk, rfl⟩ := List.mem_map.1 ha
    obtain ⟨e, -, rfl⟩ := List.mem_map.1 hb
    have := List.mem_range.1 hk
    omega

/-- Below a pulse there are its own two positions and the separator of its count. -/
theorem pulseOffsets_add_three_le {d : Nat} (hd : d ∈ pulseOffsets row) : d + 3 ≤ rowWidth row := by
  induction row generalizing d with
  | nil => cases hd
  | cons c cs ih =>
    rw [rowWidth_cons]
    obtain ⟨k, hk, rfl⟩ | ⟨e, he, rfl⟩ := (mem_pulseOffsets_cons c cs d).1 hd
    · omega
    · have := ih he
      omega

/-- The last pulse of the last count has just those three positions below it. -/
theorem exists_last_pulseOffset (hne : row ≠ []) (hpos : ∀ c ∈ row, c ≠ 0) :
    ∃ d ∈ pulseOffsets row, d + 3 = rowWidth row := by
  induction row with
  | nil => exact absurd rfl hne
  | cons c cs ih =>
    obtain ⟨hc, hcs⟩ := List.forall_mem_cons.1 hpos
    simp only [mem_pulseOffsets_cons, rowWidth_cons]
    cases cs with
    | nil =>
      have := (pulseCount_pos_iff c).2 hc
      exact ⟨_, .inl ⟨c.toNat - 1, by omega, rfl⟩, by simp [rowWidth]; omega⟩
    | cons c' cs =>
      obtain ⟨d, hd, hlast⟩ := ih (List.cons_ne_nil c' cs) hcs
      exact ⟨_, .inr ⟨d, hd, rfl⟩, by omega⟩

/-- The first count is the least `k` with no pulse `2 k` down. -/
theorem head_le_of_pulseOffsets_subset {c c' : PulseCount} {cs cs' : List PulseCount}
    (h : ∀ d, d ∈ pulseOffsets (c :: cs) → d ∈ pulseOffsets (c' :: cs')) : c.toNat ≤ c'.toNat := by
  by_contra hlt
  have hmem := h (2 * c'.toNat) ((mem_pulseOffsets_cons ..).2 (.inl ⟨c'.toNat, by omega, rfl⟩))
  obtain ⟨k, hk, e⟩ | ⟨e', -, e⟩ := (mem_pulseOffsets_cons ..).1 hmem <;> omega

/-- The pulses past the first count are those of the counts after it, the first count's width further down. -/
theorem mem_pulseOffsets_tail (c : PulseCount) (cs : List PulseCount) (d : Nat) :
    2 * c.toNat + 1 + d ∈ pulseOffsets (c :: cs) ↔ d ∈ pulseOffsets cs := by
  rw [mem_pulseOffsets_cons]
  constructor
  · rintro (⟨k, hk, e⟩ | ⟨e', he, e⟩)
    · omega
    · exact Nat.add_left_cancel e ▸ he
  · exact fun hd => .inr ⟨d, hd, rfl⟩

theorem zero_mem_pulseOffsets {c : PulseCount} (hc : c ≠ 0) (cs : List PulseCount) : 0 ∈ pulseOffsets (c :: cs) :=
  (mem_pulseOffsets_cons ..).2 (.inl ⟨0, (pulseCount_pos_iff c).2 hc, rfl⟩)

/-- A row of counts above 0 is told by where its pulses stand. -/
theorem pulseOffsets_inj {r r' : List PulseCount} (hr : ∀ c ∈ r, c ≠ 0) (hr' : ∀ c ∈ r', c ≠ 0)
    (h : ∀ d, d ∈ pulseOffsets r ↔ d ∈ pulseOffsets r') : r = r' := by
  induction r generalizing r' with
  | nil =>
    cases r' with
    | nil => rfl
    | cons c' cs' => exact absurd ((h 0).2 (zero_mem_pulseOffsets (hr' c' List.mem_cons_self) cs')) List.not_mem_nil
  | cons c cs ih =>
    cases r' with
    | nil => exact absurd ((h 0).1 (zero_mem_pulseOffsets (hr c List.mem_cons_self) cs)) List.not_mem_nil
    | cons c' cs' =>
      obtain rfl : c = c' := BitVec.eq_of_toNat_eq <| Nat.le_antisymm
        (head_le_of_pulseOffsets_subset fun d => (h d).1) (head_le_of_pulseOffsets_subset fun d => (h d).2)
      congr 1
      refine ih (List.forall_mem_cons.1 hr).2 (List.forall_mem_cons.1 hr').2 fun d => ?_
      rw [← mem_pulseOffsets_tail c, h, mem_pulseOffsets_tail]

/-! ## The code word by its pulses -/

section CodeWord

variable (h : encodeRow row = some code)
include h

theorem getLsbD_iff_pulseOffset (p : Nat) :
    code.getLsbD p = true ↔ p = 30 ∨ ∃ d ∈ pulseOffsets row, p + d = 27 := by
  simp only [encodeRow_getLsbD h, mem_pulseOffsets_iff, Nat.add_assoc]
  refine or_congr_right ⟨?_, ?_⟩
  · rintro ⟨i, k, hi, hk, e⟩
    exact ⟨_, ⟨i, k, hi, hk, rfl⟩, e⟩
  · rintro ⟨_, ⟨i, k, hi, hk, rfl⟩, e⟩
    exact ⟨i, k, hi, hk, e⟩

theorem rowWidth_le_of_encodeRow : rowWidth row ≤ 28 := ((encodeRow_eq_some_iff row code).1 h).1

theorem pulseOffset_le_25 {d : Nat} (hd : d ∈ pulseOffsets row) : d ≤ 25 := by
  have hlow := pulseOffsets_add_three_le hd
  have hfits := rowWidth_le_of_encodeRow h
  omega

theorem mem_pulseOffsets_iff_getLsbD (d : Nat) :
    d ∈ pulseOffsets row ↔ d ≤ 27 ∧ code.getLsbD (27 - d) = true := by
  rw [getLsbD_iff_pulseOffset h]
  constructor
  · intro hd
    have := pulseOffset_le_25 h hd
    exact ⟨by omega, .inr ⟨d, hd, by omega⟩⟩
  · rintro ⟨hle, e | ⟨d', hd', e⟩⟩
    · omega
    · obtain rfl : d' = d := by omega
      exact hd'

theorem extractLsb_top_of_encodeRow : code.extractLsb' 28 4 = 4#4 := by
  have hbit (p : Nat) (hp : 28 ≤ p) : code.getLsbD p = decide (p = 30) := by
    rw [Bool.eq_iff_iff, decide_eq_true_iff, getLsbD_iff_pulseOffset h]
    exact or_iff_left fun ⟨d, _, e⟩ => by omega
  ext i hi
  rw [BitVec.getElem_extractLsb', hbit _ (by omega)]
  interval_cases i <;> simp

theorem getLsbD_below_last_pulse {p : Nat} (hp : p < 30 - rowWidth row) : code.getLsbD p = false := by
  refine Bool.eq_false_iff.2 fun hset => ?_
  obtain rfl | ⟨d, hd, e⟩ := (getLsbD_iff_pulseOffset h p).1 hset
  · omega
  · have := pulseOffsets_add_three_le hd
    omega

theorem extractLsb_bottom_of_encodeRow : code.extractLsb' 0 2 = 0#2 := by
  have hfits := rowWidth_le_of_encodeRow h
  ext i hi
  rw [BitVec.getElem_extractLsb', getLsbD_below_last_pulse h (by omega)]
  simp

/-- The bits set below 28 are the pulses, each at its own place. -/
theorem setBits_perm_pulses :
    ((List.range 28).filter fun p => code.getLsbD p).Perm ((pulseOffsets row).map (27 - ·)) := by
  have hnodup : ((pulseOffsets row).map (27 - ·)).Nodup := by
    refine (pulseOffsets_nodup row).map_on fun d hd d' hd' e => ?_
    have := pulseOffset_le_25 h hd
    have := pulseOffset_le_25 h hd'
    omega
  refine (List.perm_ext_iff_of_nodup (List.nodup_range.filter _) hnodup).2 fun p => ?_
  rw [List.mem_filter, List.mem_range, List.mem_map, getLsbD_iff_pulseOffset h]
  constructor
  · rintro ⟨hp, rfl | ⟨d, hd, e⟩⟩
    · omega
    · exact ⟨d, hd, by omega⟩
  · rintro ⟨d, hd, rfl⟩
    have := pulseOffset_le_25 h hd
    exact ⟨by omega, .inr ⟨d, hd, by omega⟩⟩

end CodeWord

/-- Settles O14: the set bits below 28 are as many as the pulses, and the last pulse is the lowest. -/
theorem encodedWordShape : Obligations.EncodedWordShape := by
  intro row code hne hpos h
  refine ⟨extractLsb_top_of_encodeRow h, extractLsb_bottom_of_encodeRow h, ?_, ?_,
    fun p => getLsbD_below_last_pulse h⟩
  · rw [(setBits_perm_pulses h).length_eq, List.length_map, pulseOffsets_length]
  · obtain ⟨d, hd, hlast⟩ := exists_last_pulseOffset hne hpos
    have := pulseOffset_le_25 h hd
    exact (getLsbD_iff_pulseOffset h _).2 (.inr ⟨d, hd, by omega⟩)

/-- Settles O15: the code word tells where the pulses stand, and these the row. -/
theorem encodeIsInjective : Obligations.EncodeIsInjective := by
  intro r r' code hr hr' h h'
  refine pulseOffsets_inj hr hr' fun d => ?_
  rw [mem_pulseOffsets_iff_getLsbD h, mem_pulseOffsets_iff_getLsbD h']

end Sys2Proof.Proofs
end

section
/-! Where the block encodes: what a send carries in a state of the invariant (O49), and `ENCODE` (O18). -/

namespace Sys2Proof.Proofs

open Sys2Proof.Machine Sys2Proof.Safety

theorem rowCode_eq_some {c : Config} {ch : Channel} {op : Operation} {sub : Bool} {code : Word}
    (h : rowCode c ch op sub = some code) : ∃ w ∈ c.pulseTable, encodeRow (rowOf w) = some code := by
  obtain ⟨w, hw, hcode⟩ := Option.bind_eq_some_iff.1 h
  exact ⟨w, lookupRow_mem hw, hcode⟩

/-- What a state of the invariant sends is the code word of a row of the operation in progress. -/
theorem txOut_of_inv {s : State} {r : TxRequest} (h : Inv s) (hr : s.txOut = some r) :
    ∃ sub code n, rowCode s.cfg s.cmdCh s.op sub = some code ∧ (n = 4 ∨ n = 1) ∧
      r = { payload := payload code, repeatCount := n, delayBetween := 0 } := by
  have ⟨_, _, ⟨htx, _⟩, _⟩ := h
  obtain hp | hp | hp := htx.1 (by simp [hr])
  · obtain ⟨-, ⟨-, hcode, -⟩, hsend⟩ := invAt_of_inv h hp
    exact ⟨false, s.code0, 4, hcode, .inl rfl, Option.some.inj (hr.symm.trans hsend)⟩
  · obtain ⟨-, ⟨-, -, -, hcode, -⟩, -, hsend⟩ := invAt_of_inv h hp
    exact ⟨false, s.code0, 1, hcode, .inr rfl, Option.some.inj (hr.symm.trans hsend)⟩
  · obtain ⟨-, ⟨-, -, -, -, hcode, -⟩, -, hsend⟩ := invAt_of_inv h hp
    exact ⟨true, s.code1, 1, hcode, .inr rfl, Option.some.inj (hr.symm.trans hsend)⟩

/-- Settles O49: a step keeps the invariant, which says what a send carries. -/
theorem everySendIsAnEncodedRow : Obligations.EverySendIsAnEncodedRow := by
  intro s t r hs ht hr
  obtain ⟨sub, code, n, hrow, hn, rfl⟩ := txOut_of_inv (stepKeepsInvariant s t hs ht) hr
  obtain ⟨w, hw, hcode⟩ := rowCode_eq_some hrow
  exact ⟨rfl, hn, w, code, hw, hcode, rfl⟩

/-- `ENCODE` finishes with the row's code word, or with 0 and the first error on the way to it. -/
theorem encodeCommand_eq (ch : Channel) (op : Operation) (sub : Bool) (s : State) :
    encodeCommand ch op sub s =
      finishWith ((rowCode s.cfg ch op sub).getD 0)
        (if lookupRow s.cfg ch op sub = none then .configurationMissing
          else if rowCode s.cfg ch op sub = none then .rowTooLong else .ok) s := by
  unfold encodeCommand
  cases hrow : lookupRow s.cfg ch op sub with
  | none => simp [rowCode, hrow]
  | some w => cases hcode : encodeRow (rowOf w) <;> simp [rowCode, hrow, hcode]

/-- Settles O18: `finishWith` writes just the result, the error, `DONE` and the idle phase with nothing outstanding. -/
theorem encodeCompletes : Obligations.EncodeCompletes := fun s ch op sub =>
  congrArg Host.Outcome.next (encodeCommand_eq ch op sub s)

end Sys2Proof.Proofs
end

/-! # The controller family: a request's first step, its legs, and the whole of it -/

section
/-! What a request does in its `EXEC` step (O19 to O22, O24, O25, O59): the entry checks, a request with nothing to do,
and the start of a sequence. -/

namespace Sys2Proof.Proofs

open Sys2Proof.Machine Sys2Proof.Safety

variable {s : State} {ch : Channel}

/-! ## The end of a request in its first step -/

theorem snapshot_of_valid (hc : ch.toNat < s.cfg.numLights) : s.snapshot ch = lightWord (s.light ch) := if_pos hc

theorem snapshot_of_invalid (hc : s.cfg.numLights ≤ ch.toNat) : s.snapshot ch = 0 := if_neg (Nat.not_lt.2 hc)

theorem finishRequest_latchRequest_snapshot (ch : Channel) (dp : Power) (sb : Bool) (db : Brightness) (e : ErrorCode)
    (s : State) :
    finishRequest e (latchRequest ch dp sb db s) = requestEnded s ch dp sb db e (s.snapshot ch) := rfl

/-- Settles O19: the channel check comes first. -/
theorem invalidChannelEndsRequest : Obligations.InvalidChannelEndsRequest := by
  intro s ch dp sb db hc
  rw [← snapshot_of_invalid hc]
  exact congrArg Host.Outcome.next (beginRequest_invalid (s := latchRequest ch dp sb db s) hc)

/-- Settles O20: the range check comes second. -/
theorem brightnessOutOfRangeEndsRequest : Obligations.BrightnessOutOfRangeEndsRequest := by
  intro s ch dp db hc hdb
  rw [← snapshot_of_valid hc]
  exact congrArg Host.Outcome.next (beginRequest_outOfRange (s := latchRequest ch dp true db s) hc ⟨rfl, hdb⟩)

/-! ## The power leg -/

/-- Settles O22: the power leg is begun, and its sequence sends. -/
theorem powerChangeSendsOneBurst : Obligations.PowerChangeSendsOneBurst := by
  intro s ch dp sb db code hc hb hp hrow
  rw [← powerOperation_eq_ite] at hrow ⊢
  have hbegin := beginRequest_power (s := latchRequest ch dp sb db s) hc hb hp
  exact congrArg Host.Outcome.next (hbegin.trans (startOnOff_sends hrow))

/-! ## The brightness leg at the present power -/

/-- The brightness leg has nothing to do for an entry `l` (42_controller.md R85, R89 item 2). -/
abbrev NoBrightnessWork (sb : Bool) (db : Brightness) (l : LightState) : Prop :=
  sb = false ∨ db = l.brightness ∨ db.toNat ≤ 1 ∧ l = { power := .off, brightness := 0 }

theorem planBrightness_noWork {s : State} (h : NoBrightnessWork s.cmdSb s.cmdDb (s.light s.cmdCh)) :
    planBrightness s = finishRequest .ok s := by
  obtain h | h | ⟨h1, h0⟩ := h
  · exact planBrightness_done (.inl h)
  · exact planBrightness_done (.inr h)
  · exact planBrightness_alreadyOff h1 h0

/-- A valid request at the present power plans its brightness leg at once. -/
theorem exec_requestState_samePower (hc : ch.toNat < s.cfg.numLights) {sb : Bool} {db : Brightness}
    (hb : sb = true → db.toNat ≤ 64) :
    exec (.requestState ch (s.light ch).power sb db) s =
      .next (planBrightness (latchRequest ch (s.light ch).power sb db s)) :=
  congrArg Host.Outcome.next (beginRequest_plan (s := latchRequest ch (s.light ch).power sb db s) hc hb rfl)

/-- Settles O21: the brightness leg has no work in any of the three cases. -/
theorem satisfiedRequestDoesNothing : Obligations.SatisfiedRequestDoesNothing := by
  intro s ch sb db hc hwork
  have hb : sb = true → db.toNat ≤ 64 := by
    rintro rfl
    obtain h | ⟨h, -⟩ | ⟨h, -⟩ := hwork
    · cases h
    · exact h
    · omega
  rw [exec_requestState_samePower hc hb, ← snapshot_of_valid hc, ← finishRequest_latchRequest_snapshot]
  exact congrArg Host.Outcome.next (planBrightness_noWork (hwork.imp_right (Or.imp_left And.right)))

/-- A request for brightness 0 or 1 at the present power starts the Off sequence as its brightness leg. -/
theorem exec_requestState_low (hc : ch.toNat < s.cfg.numLights) {db : Brightness} (h1 : db.toNat ≤ 1)
    (hne : db ≠ (s.light ch).brightness) (h0 : s.light ch ≠ { power := .off, brightness := 0 }) :
    exec (.requestState ch (s.light ch).power true db) s =
      .next (startOnOff .brightness .off (latchRequest ch (s.light ch).power true db s)) :=
  (exec_requestState_samePower hc fun _ => by omega).trans
    (congrArg Host.Outcome.next (planBrightness_low rfl hne h1 h0))

/-- Settles O24: the Off sequence has a code word, which it sends. -/
theorem lowBrightnessTakesOffRoute : Obligations.LowBrightnessTakesOffRoute := by
  intro s ch db code hc h1 hne h0 hrow
  exact (exec_requestState_low hc h1 hne h0).trans (congrArg Host.Outcome.next (startOnOff_sends hrow))

/-- Settles O59: the Off sequence has no code word, so it ends the request. -/
theorem lowBrightnessWithoutUsableRowEnds : Obligations.LowBrightnessWithoutUsableRowEnds := by
  intro s ch db hc h1 hne h0 hrow
  exact (exec_requestState_low hc h1 hne h0).trans
    (congrArg Host.Outcome.next ((startOnOff_ends hrow).trans (finishRequest_latchRequest hc ..)))

/-- The number of dim steps fits `steps_left`: it is a difference of two brightnesses. -/
theorem dimDelta_natAbs_ofNat (db b : Brightness) :
    BitVec.ofNat 7 (dimDelta db b).natAbs = if b.toNat < db.toNat then db - b else b - db := by
  rw [dimDelta_natAbs]
  split <;> bv_omega

/-- Settles O25: the brightness leg is a dim sequence with both code words, and it sends the first. -/
theorem dimRequestStartsSequence : Obligations.DimRequestStartsSequence := by
  intro s ch db code0 code1 b up hc h2 h64 hne h0 h1
  have hplan := planBrightness_dim (s := latchRequest ch (s.light ch).power true db s) rfl hne h2
  rw [exec_requestState_samePower hc fun _ => h64, hplan, startDim_sends h0 h1]
  congr 1
  simp only [← dimDelta_natAbs_ofNat, up, b]
  rfl

end Sys2Proof.Proofs
end

section
/-! Two things that change little: a `PublishError` (O30), and a host access while a command runs (O40). -/

namespace Sys2Proof.Proofs

open Sys2Proof.Machine Sys2Proof.Safety

/-! ## `PUBERR` and the rest of a request -/

/-- The state with `PUBERR` set, which no step of a request reads. -/
def withPubErr (s : State) : State := { s with status := { s.status with pubErr := true } }

theorem finishRequest_withPubErr (e : ErrorCode) (s : State) :
    finishRequest e (withPubErr s) = withPubErr (finishRequest e s) := rfl

theorem startOnOff_withPubErr (g : Leg) (o : Operation) (s : State) :
    startOnOff g o (withPubErr s) = withPubErr (startOnOff g o s) := by
  cases h : rowCode s.cfg s.cmdCh o false with
  | none => rw [startOnOff_ends h, startOnOff_ends (s := withPubErr s) h]; rfl
  | some code => rw [startOnOff_sends h, startOnOff_sends (s := withPubErr s) h]; rfl

theorem startDim_withPubErr (o : Operation) (n : Nat) (s : State) :
    startDim o n (withPubErr s) = withPubErr (startDim o n s) := by
  by_cases h : rowCode s.cfg s.cmdCh o false = none ∨ rowCode s.cfg s.cmdCh o true = none
  · rw [startDim_ends h, startDim_ends (s := withPubErr s) h]; rfl
  · obtain ⟨h0, h1⟩ := not_or.1 h
    obtain ⟨code0, h0⟩ := Option.ne_none_iff_exists'.1 h0
    obtain ⟨code1, h1⟩ := Option.ne_none_iff_exists'.1 h1
    rw [startDim_sends h0 h1, startDim_sends (s := withPubErr s) h0 h1]; rfl

theorem planBrightness_withPubErr (s : State) : planBrightness (withPubErr s) = withPubErr (planBrightness s) := by
  simp only [planBrightness, apply_ite withPubErr, ← startOnOff_withPubErr, ← startDim_withPubErr,
    ← finishRequest_withPubErr]
  rfl

/-- Settles O30: the response is recorded, and what follows it does not read `PUBERR`. -/
theorem publishErrorSetsOnlyItsBit : Obligations.PublishErrorSetsOnlyItsBit := by
  intro s u hp hu
  refine ⟨pubResponse .ok s, congrArg _ (sinkStep_pub hu hp .ok), congrArg _ ((sinkStep_pub hu hp _).trans ?_)⟩
  cases hg : s.leg with
  | power =>
    rw [pubResponse_power hg, pubResponse_power hg]
    exact planBrightness_withPubErr { s with pubOut := none }
  | brightness =>
    rw [pubResponse_brightness hg, pubResponse_brightness hg]
    rfl

/-! ## The host while a command runs -/

/-- Settles O40: a write to `CMD` is refused, one to `QSEL` is stored, and a read stores the data word alone. -/
theorem hostCannotDisturbRunningCommand : Obligations.HostCannotDisturbRunningCommand := by
  intro s k v e hp he
  obtain rfl | he := List.mem_cons.1 he
  · obtain ⟨hidle, -⟩ | ⟨-, h⟩ | ⟨q, h⟩ := regWrite_cases k v s
    · exact absurd hidle hp
    · exact ⟨s.qsel, true, s.readData, congrArg _ h⟩
    · exact ⟨q, s.status.overrun, s.readData, congrArg _ h⟩
  · obtain rfl := List.mem_singleton.1 he
    exact ⟨s.qsel, s.status.overrun, some (regRead k s), rfl⟩

end Sys2Proof.Proofs
end

section
/-! The pseudocode of a request in parts (42_controller.md R77): what its sequences send, when each leg has work, and
what a leg with work comes to. -/

namespace Sys2Proof.Proofs

open Sys2Proof.Machine Sys2Proof.Safety

variable {c : Config} {answers : Nat → Bool} {ch : Channel} {r : Run}

/-! ## The sequences -/

/-- A sequence that ran from `r` to `x` went through at most `m` sends and `d` delays, changed nothing else, and
finishes with no error or one that is not `OK`. -/
def SendsOnly (m d : Nat) (r : Run) (x : Run × Option ErrorCode) : Prop :=
  x.2 ≠ some .ok ∧ ∃ ws, x.1 = { r with waits := r.waits ++ ws } ∧ (ws.filter Wait.isSend).length ≤ m ∧
    (ws.filter Wait.isDelay).length ≤ d ∧ (ws.filter Wait.isPublish).length = 0

theorem sendsOnly_unchanged {e : Option ErrorCode} (he : e ≠ some .ok) (m d : Nat) (r : Run) :
    SendsOnly m d r (r, e) :=
  ⟨he, [], by simp⟩

/-- For want of a usable row a sequence finishes with an error. -/
theorem rowError_ne_ok (p : Prop) [Decidable p] :
    some (if p then ErrorCode.unsupportedOperation else .rowTooLong) ≠ some .ok := by
  split <;> simp

theorem onOffSequence_sendsOnly (c : Config) (answers : Nat → Bool) (ch : Channel) (o : Operation) (r : Run) :
    SendsOnly 1 0 r (onOffSequence c answers ch o r) := by
  rw [onOffSequence_eq]
  cases rowCode c ch o false with
  | none => exact sendsOnly_unchanged (rowError_ne_ok _) ..
  | some code => exact ⟨by cases answers r.waits.length <;> simp, [sendOf code 4], rfl, by simp, by simp, by simp⟩

theorem dimLoop_sendsOnly (answers : Nat → Bool) (code0 code1 : Word) (n : Nat) (r : Run) :
    SendsOnly (2 * n) n r (dimLoop answers code0 code1 n r) := by
  induction n generalizing r with
  | zero => exact sendsOnly_unchanged (by simp) ..
  | succ n ih =>
    cases h0 : answers r.waits.length with
    | false =>
      rw [dimLoop_error0 h0]
      exact ⟨by simp, [sendOf code0 1], rfl, by simp; omega, by simp, by simp⟩
    | true =>
      cases h1 : answers (r.waited (sendOf code0 1)).waits.length with
      | false =>
        rw [dimLoop_error1 h0 h1]
        exact ⟨by simp, [sendOf code0 1, sendOf code1 1], by simp, by simp, by simp, by simp⟩
      | true =>
        rw [dimLoop_ok h0 h1]
        obtain ⟨he, ws, hx, hsend, hdelay, hpub⟩ :=
          ih (((r.waited (sendOf code0 1)).waited (sendOf code1 1)).waited .delay)
        refine ⟨he, [sendOf code0 1, sendOf code1 1, .delay] ++ ws, by simp [hx], ?_, ?_, by simpa using hpub⟩
        · simp; omega
        · simpa using hdelay

theorem dimSequence_ends {o : Operation} (h : rowCode c ch o false = none ∨ rowCode c ch o true = none) (n : Nat) :
    dimSequence c answers ch o n r =
      (r, some (if lookupRow c ch o false = none ∨ lookupRow c ch o true = none then .unsupportedOperation
        else .rowTooLong)) := by
  rw [dimSequence_eq]
  split
  next h0 h1 => simp [h0, h1] at h
  next => rfl

theorem dimSequence_loops {o : Operation} {code0 code1 : Word} (h0 : rowCode c ch o false = some code0)
    (h1 : rowCode c ch o true = some code1) (n : Nat) :
    dimSequence c answers ch o n r = dimLoop answers code0 code1 n r := by
  rw [dimSequence_eq, h0, h1]

/-- Whether both rows of a dim sequence have a code word. -/
theorem rowCodes_cases (c : Config) (ch : Channel) (o : Operation) :
    (rowCode c ch o false = none ∨ rowCode c ch o true = none) ∨
      ∃ code0 code1, rowCode c ch o false = some code0 ∧ rowCode c ch o true = some code1 := by
  cases rowCode c ch o false <;> cases rowCode c ch o true <;> simp

theorem dimSequence_sendsOnly (c : Config) (answers : Nat → Bool) (ch : Channel) (o : Operation) (n : Nat) (r : Run) :
    SendsOnly (2 * n) n r (dimSequence c answers ch o n r) := by
  obtain h | ⟨code0, code1, h0, h1⟩ := rowCodes_cases c ch o
  · rw [dimSequence_ends h]
    exact sendsOnly_unchanged (rowError_ne_ok _) ..
  · rw [dimSequence_loops h0 h1]
    exact dimLoop_sendsOnly ..

/-- With every send answered `OK` the loop goes through exactly `n` times two sends and a delay. -/
theorem dimLoop_allOk (code0 code1 : Word) (n : Nat) (r : Run) :
    dimLoop (fun _ => true) code0 code1 n r =
      ({ r with waits := r.waits ++ (List.replicate n [sendOf code0 1, sendOf code1 1, .delay]).flatten }, none) := by
  induction n generalizing r with
  | zero => simp [dimLoop]
  | succ n ih => simp [dimLoop_ok, ih, List.replicate_succ]

/-! ## A leg's commit, and what follows a leg -/

/-- The run with a leg's bit set. -/
def legShown (r : Run) : Leg → Run
  | .power => { r with pLeg := true }
  | .brightness => { r with bLeg := true }

/-- A leg's commit of the entry `l`, with its publish. -/
def commitRun (answers : Nat → Bool) (ch : Channel) (g : Leg) (l : LightState) (r : Run) : Run :=
  publishLight answers ch (legShown { r with ls := r.ls.set ch.toNat l } g)

/-- A leg whose sequence ended in `x`: its commit, unless the sequence failed. -/
def thenCommit (answers : Nat → Bool) (ch : Channel) (g : Leg) (l : LightState) (x : Run × Option ErrorCode) :
    Run × Option ErrorCode :=
  match x with
  | (r, some e) => (r, some e)
  | (r, none) => (commitRun answers ch g l r, none)

/-- What follows a part of a request, unless that part failed. -/
def onSuccess (x : Run × Option ErrorCode) (next : Run → Run × ErrorCode) : Run × ErrorCode :=
  match x with
  | (r, some e) => (r, e)
  | (r, none) => next r

theorem onSuccess_thenCommit (g : Leg) (l : LightState) (x : Run × Option ErrorCode) (next : Run → Run × ErrorCode) :
    onSuccess (thenCommit answers ch g l x) next = onSuccess x fun r => next (commitRun answers ch g l r) := by
  obtain ⟨r, _ | e⟩ := x <;> rfl

/-- The brightness leg, which ends the request. -/
def brightnessPart (c : Config) (answers : Nat → Bool) (ch : Channel) (sb : Bool) (db : Brightness) (r : Run) :
    Run × ErrorCode :=
  onSuccess (brightnessLeg c answers ch sb db r) fun r' => (r', .ok)

theorem requestProcedure_checked (hc : ch.toNat < c.numLights) {sb : Bool} {db : Brightness}
    (hb : sb = true → db.toNat ≤ 64) (dp : Power) :
    requestProcedure c answers ch dp sb db r =
      onSuccess (powerLeg c answers ch dp r) (brightnessPart c answers ch sb db) := by
  have hb' : ¬ (sb = true ∧ 64 < db.toNat) := fun h => Nat.not_lt.2 (hb h.1) h.2
  unfold requestProcedure
  rw [if_neg (Nat.not_le.2 hc), if_neg hb']
  obtain ⟨r', _ | e⟩ := powerLeg c answers ch dp r
  · unfold brightnessPart onSuccess
    obtain ⟨r'', _ | e⟩ := brightnessLeg c answers ch sb db r' <;> rfl
  · rfl

/-! ## When a leg has work -/

/-- The entry the power leg commits (42_controller.md R80). -/
def powerLegLight (dp : Power) : LightState := { power := dp, brightness := if dp = .on then 64 else 0 }

theorem powerLeg_same {dp : Power} (h : dp = (r.light ch).power) : powerLeg c answers ch dp r = (r, none) :=
  if_neg (not_not_intro h)

theorem powerLeg_change {dp : Power} (h : dp ≠ (r.light ch).power) :
    powerLeg c answers ch dp r =
      thenCommit answers ch .power (powerLegLight dp) (onOffSequence c answers ch (powerOperation dp) r) := by
  unfold powerLeg
  rw [if_pos h, ← powerOperation_eq_ite]
  obtain ⟨r', _ | e⟩ := onOffSequence c answers ch (powerOperation dp) r <;> rfl

/-- The brightness leg has nothing to do, takes the Off route, or is a dim sequence. -/
theorem brightnessWork_cases (sb : Bool) (db : Brightness) (l : LightState) :
    NoBrightnessWork sb db l ∨
      (sb = true ∧ db ≠ l.brightness ∧ db.toNat ≤ 1 ∧ l ≠ { power := .off, brightness := 0 }) ∨
      (sb = true ∧ db ≠ l.brightness ∧ 2 ≤ db.toNat) := by
  unfold NoBrightnessWork
  grind

section
variable {sb : Bool} {db : Brightness}

theorem brightnessLeg_noWork (h : NoBrightnessWork sb db (r.light ch)) :
    brightnessLeg c answers ch sb db r = (r, none) := by
  unfold brightnessLeg
  split
  next hw =>
    obtain h | h | ⟨h1, h0⟩ := h
    · simp [h] at hw
    · exact absurd h hw.2
    · rw [if_pos h1, if_neg (not_not_intro h0)]
  · rfl

theorem brightnessLeg_low (hs : sb = true) (hd : db ≠ (r.light ch).brightness) (h1 : db.toNat ≤ 1)
    (h0 : r.light ch ≠ { power := .off, brightness := 0 }) :
    brightnessLeg c answers ch sb db r =
      thenCommit answers ch .brightness { power := .off, brightness := 0 } (onOffSequence c answers ch .off r) := by
  unfold brightnessLeg
  rw [if_pos ⟨hs, hd⟩, if_pos h1, if_pos h0]
  obtain ⟨r', _ | e⟩ := onOffSequence c answers ch .off r <;> rfl

theorem brightnessLeg_dim (hs : sb = true) (hd : db ≠ (r.light ch).brightness) (h2 : 2 ≤ db.toNat) :
    brightnessLeg c answers ch sb db r =
      thenCommit answers ch .brightness { power := (r.light ch).power, brightness := db }
        (dimSequence c answers ch (if (r.light ch).brightness.toNat < db.toNat then .dimUp else .dimDown)
          (dimDelta db (r.light ch).brightness).natAbs r) := by
  rw [← dimDelta_operation]
  have hdelta : (db.toNat : Int) - (r.light ch).brightness.toNat = dimDelta db (r.light ch).brightness := rfl
  unfold brightnessLeg
  rw [if_pos ⟨hs, hd⟩, if_neg (by omega)]
  simp only [hdelta, gt_iff_lt]
  obtain ⟨-, ws, hx, -⟩ := dimSequence_sendsOnly c answers ch
    (if 0 < dimDelta db (r.light ch).brightness then .dimUp else .dimDown)
    (dimDelta db (r.light ch).brightness).natAbs r
  generalize dimSequence _ _ _ _ _ _ = x at *
  obtain ⟨r', _ | e⟩ := x
  · obtain rfl := hx
    rfl
  · rfl

end

end Sys2Proof.Proofs
end

section
/-! The phase machine against the pseudocode (O54): phase by phase, the machine driven on goes through what the rest of
the pseudocode does. -/

namespace Sys2Proof.Proofs

open Sys2Proof.Machine Sys2Proof.Safety

variable {answers : Nat → Bool} {s t : State} {ws : List Wait} {k : Nat} {p : Run × ErrorCode}

/-! ## Driving the machine one step on -/

/-- The run of a request that has come to the state `t` and gone through the waits `ws`. -/
def runAt (t : State) (ws : List Wait) : Run := { runOf t with waits := ws }

/-- `t` executes the command that `s` does, with every register that is not the sequencer's own as in `s`. -/
abbrev SameCommand (s t : State) : Prop :=
  t.cfg = s.cfg ∧ t.cmd = s.cmd ∧ t.qsel = s.qsel ∧ t.status.overrun = s.status.overrun ∧ t.cmdCh = s.cmdCh

/-- Driven on from `t` by `k` steps or more, the request of `s` ends as `p` says. -/
def EndsIn (answers : Nat → Bool) (s : State) (k : Nat) (t : State) (ws : List Wait) (p : Run × ErrorCode) : Prop :=
  ∀ n, k ≤ n → (drive answers n t ws).2 = p.1.waits ∧ EndsAs s (drive answers n t ws).1 s.cmdCh p.1 p.2

theorem endsIn_mono {k' : Nat} (h : EndsIn answers s k t ws p) (hk : k ≤ k') : EndsIn answers s k' t ws p :=
  fun n hn => h n (hk.trans hn)

theorem endsIn_finishRequest (hs : SameCommand s t) (e : ErrorCode) :
    EndsIn answers s k (finishRequest e t) ws (runAt t ws, e) := by
  obtain ⟨hcfg, hcmd, hqsel, hover, hch⟩ := hs
  intro n _
  rw [drive_idle answers n rfl]
  refine ⟨rfl, rfl, rfl, ?_, ?_, rfl, rfl, rfl, hcfg, hcmd, hqsel⟩
  · rw [← hover]; rfl
  · rw [← hcfg, ← hch]; rfl

theorem endsIn_step {t' : State} (hp : t.phase ≠ .idle)
    (ht : perform (movingEvent (answers ws.length) t) t = .next t')
    (h : EndsIn answers s k t' (ws ++ outstanding t) p) : EndsIn answers s (k + 1) t ws p := by
  intro n hn
  obtain ⟨m, rfl⟩ : ∃ m, n = m + 1 := ⟨n - 1, by omega⟩
  rw [drive_step answers m hp ht]
  exact h m (by omega)

/-- The transmission port's answer as its response. -/
abbrev txAnswer (a : Bool) : TxResponse := if a then .ok else .transmitError

/-- The sink's answer as its response. -/
abbrev pubAnswer (a : Bool) : PubResponse := if a then .ok else .publishError

theorem endsIn_send {q : TxRequest} (h : Inv t) (hp : Sending t) (htx : t.txOut = some q)
    (hk : EndsIn answers s k (txPortStep (txAnswer (answers ws.length)) t) (ws ++ [.send q]) p) :
    EndsIn answers s (k + 1) t ws p := by
  have hout : outstanding t = [.send q] := by
    obtain ⟨-, -, ⟨-, hpub, hdelay⟩, -⟩ := h
    obtain hp | hp | hp := hp <;> simp_all [outstanding]
  have hmove : movingEvent (answers ws.length) t = .txPort (txAnswer (answers ws.length)) := by
    obtain hp | hp | hp := hp <;> simp [movingEvent, hp]
  have hbusy : t.phase ≠ .idle := by obtain hp | hp | hp := hp <;> simp [hp]
  exact endsIn_step hbusy (congrArg (perform · t) hmove) (hout ▸ hk)

theorem endsIn_onOffTx (h : Inv t) (hp : t.phase = .onOffTx)
    (hk : EndsIn answers s k (onOffResponse (txAnswer (answers ws.length)) t) (ws ++ [sendOf t.code0 4]) p) :
    EndsIn answers s (k + 1) t ws p := by
  obtain ⟨-, -, htx⟩ := invAt_of_inv h hp
  exact endsIn_send h (.inl hp) htx (txPortStep_onOffTx htx hp _ ▸ hk)

theorem endsIn_dimTx0 (h : Inv t) (hp : t.phase = .dimTx0)
    (hk : EndsIn answers s k (dimTx0Response (txAnswer (answers ws.length)) t) (ws ++ [sendOf t.code0 1]) p) :
    EndsIn answers s (k + 1) t ws p := by
  obtain ⟨-, -, -, htx⟩ := invAt_of_inv h hp
  exact endsIn_send h (.inr (.inl hp)) htx (txPortStep_dimTx0 htx hp _ ▸ hk)

theorem endsIn_dimTx1 (h : Inv t) (hp : t.phase = .dimTx1)
    (hk : EndsIn answers s k (dimTx1Response (txAnswer (answers ws.length)) t) (ws ++ [sendOf t.code1 1]) p) :
    EndsIn answers s (k + 1) t ws p := by
  obtain ⟨-, -, -, htx⟩ := invAt_of_inv h hp
  exact endsIn_send h (.inr (.inr hp)) htx (txPortStep_dimTx1 htx hp _ ▸ hk)

theorem endsIn_dimDelay (h : Inv t) (hp : t.phase = .dimDelay)
    (hk : EndsIn answers s k (dimDelayExpiry t) (ws ++ [.delay]) p) : EndsIn answers s (k + 1) t ws p := by
  have hout : outstanding t = [.delay] := by
    obtain ⟨⟨-, hpub, -⟩, -, -, htx, hdelay⟩ := invAt_of_inv h hp
    have hpub : t.pubOut = none := hpub
    simp [outstanding, htx, hpub, hdelay]
  have hmove : movingEvent (answers ws.length) t = .sequencer := by simp [movingEvent, hp]
  refine endsIn_step (by simp [hp]) ?_ (hout ▸ hk)
  rw [hmove]
  exact sequencerStep_dimDelay hp

/-- The wait for the publish of the channel's entry. -/
abbrev publishOf (t : State) : Wait :=
  .publish
    { channel := t.cmdCh, power := (t.light t.cmdCh).power, brightness := (t.light t.cmdCh).brightness }

theorem endsIn_pub (h : Inv t) (hp : t.phase = .pub)
    (hk : EndsIn answers s k (pubResponse (pubAnswer (answers ws.length)) t) (ws ++ [publishOf t]) p) :
    EndsIn answers s (k + 1) t ws p := by
  obtain ⟨-, -, htx, hdelay, hpub, -⟩ := invAt_of_inv h hp
  have hout : outstanding t = [publishOf t] := by simp [outstanding, htx, hpub, hdelay]
  have hmove : movingEvent (answers ws.length) t = .sink (pubAnswer (answers ws.length)) := by
    simp [movingEvent, hp]
  refine endsIn_step (by simp [hp]) ?_ (hout ▸ hk)
  rw [hmove]
  exact congrArg Host.Outcome.next (sinkStep_pub hpub hp _)

/-! ## The publish -/

/-- The state after a publish was answered, before what follows it. -/
abbrev published (a : Bool) (t : State) : State :=
  { t with pubOut := none, status := t.status.published (pubAnswer a) }

theorem publishLight_runAt (t : State) (ws : List Wait) :
    publishLight answers t.cmdCh (runAt t ws) = runAt (published (answers ws.length) t) (ws ++ [publishOf t]) := by
  have hans : answers (runAt t ws).waits.length = answers ws.length := rfl
  unfold publishLight await
  rw [hans]
  cases answers ws.length <;> simp [runAt, runOf, pubAnswer, Status.published, Run.light, State.light]

theorem sameCommand_published (h : SameCommand s t) (a : Bool) : SameCommand s (published a t) := by
  cases a <;> exact h

theorem endsIn_publishLast (h : Inv t) (hs : SameCommand s t) (hp : t.phase = .pub) (hg : t.leg = .brightness) :
    EndsIn answers s 1 t ws (publishLight answers t.cmdCh (runAt t ws), .ok) := by
  refine endsIn_pub h hp ?_
  rw [pubResponse_brightness hg, publishLight_runAt]
  exact endsIn_finishRequest (sameCommand_published hs _) .ok

/-! ## The sequences -/

/-- What the pseudocode still does in a dim sequence with `n` steps left, and then its commit. -/
def dimRest (answers : Nat → Bool) (n : Nat) (t : State) (ws : List Wait) : Run × ErrorCode :=
  onSuccess (dimLoop answers t.code0 t.code1 n (runAt t ws)) fun r =>
    (commitRun answers t.cmdCh .brightness { power := (t.light t.cmdCh).power, brightness := t.cmdDb } r, .ok)

/-- The end of a delay: the next step's first send, which `hnext` takes on, or the commit. -/
theorem endsIn_dimDelayExpiry {n : Nat} (h : Inv t) (hs : SameCommand s t) (hp : t.phase = .dimDelay)
    (hn : t.stepsLeft.toNat = n)
    (hnext : ∀ {t : State} {ws : List Wait}, Inv t → SameCommand s t → t.phase = .dimTx0 → t.stepsLeft.toNat = n →
      EndsIn answers s (3 * n + 1) t ws (dimRest answers n t ws)) :
    EndsIn answers s (3 * n + 1) (dimDelayExpiry t) ws (dimRest answers n t ws) := by
  have hinv := inv_dimDelayExpiry h hp
  obtain ⟨-, e⟩ | ⟨hz, e⟩ := dimDelayExpiry_cases t
  · rw [e] at hinv ⊢
    exact hnext hinv hs rfl hn
  · obtain rfl : n = 0 := by rw [← hn, hz]; rfl
    obtain ⟨-, ⟨-, -, -, -, -, hleg, -⟩, -⟩ := invAt_of_inv h hp
    rw [e] at hinv ⊢
    exact endsIn_publishLast hinv hs rfl hleg

/-- A dim sequence, from the first send of a step on. -/
theorem endsIn_dim {n : Nat} (h : Inv t) (hs : SameCommand s t) (hp : t.phase = .dimTx0)
    (hn : t.stepsLeft.toNat = n) : EndsIn answers s (3 * n + 1) t ws (dimRest answers n t ws) := by
  induction n generalizing t ws with
  | zero =>
    obtain ⟨-, -, ⟨h1, -⟩, -⟩ := invAt_of_inv h hp
    omega
  | succ n ih =>
    unfold dimRest
    refine endsIn_dimTx0 h hp ?_
    cases h0 : answers ws.length with
    | false =>
      rw [dimLoop_error0 (r := runAt t ws) h0]
      exact endsIn_finishRequest (t := { t with txOut := none }) hs _
    | true =>
      have hinv1 := inv_dimTx0Response h hp .ok
      refine endsIn_dimTx1 hinv1 rfl ?_
      cases h1 : answers (ws ++ [sendOf t.code0 1]).length with
      | false =>
        rw [dimLoop_error1 (r := runAt t ws) h0 h1]
        exact endsIn_finishRequest (t := { t with txOut := none }) hs _
      | true =>
        rw [dimLoop_ok (r := runAt t ws) h0 h1]
        have hinv2 := inv_dimTx1Response hinv1 rfl .ok
        have hsteps : (t.stepsLeft - 1).toNat = n := by bv_omega
        exact endsIn_dimDelay hinv2 rfl (endsIn_dimDelayExpiry hinv2 hs rfl hsteps ih)

/-- The state that waits for the send of an On/Off sequence. -/
abbrev onOffSending (g : Leg) (o : Operation) (code : Word) (t : State) : State :=
  issueSend (payload code) onOffRepeat onOffDelay .onOffTx { t with leg := g, op := o, code0 := code }

/-- An On/Off sequence: its send and, on `OK`, its commit and what follows. -/
theorem endsIn_startOnOff {g : Leg} {o : Operation} (h : Inv (startOnOff g o t)) (hs : SameCommand s t)
    {next : Run → Run × ErrorCode}
    (hk : ∀ code ws', Inv (onOffResponse .ok (onOffSending g o code t)) →
      EndsIn answers s k (onOffResponse .ok (onOffSending g o code t)) ws' (next (runAt t ws'))) :
    EndsIn answers s (k + 1) (startOnOff g o t) ws
      (onSuccess (onOffSequence t.cfg answers t.cmdCh o (runAt t ws)) next) := by
  rw [onOffSequence_eq]
  cases hrow : rowCode t.cfg t.cmdCh o false with
  | none =>
    rw [startOnOff_ends hrow]
    exact endsIn_finishRequest (t := { t with leg := g, op := o }) hs _
  | some code =>
    rw [startOnOff_sends hrow] at h ⊢
    refine endsIn_onOffTx h rfl ?_
    have hlen : (runAt t ws).waits.length = ws.length := rfl
    rw [hlen]
    cases hans : answers ws.length with
    | false => exact endsIn_finishRequest (t := { onOffSending g o code t with txOut := none }) hs _
    | true => exact hk code _ (inv_onOffResponse h rfl .ok)

theorem endsIn_startDim {o : Operation} {n : Nat} (h : Inv (startDim o n t)) (hs : SameCommand s t) (hn : n < 128) :
    EndsIn answers s (3 * n + 1) (startDim o n t) ws
      (onSuccess (dimSequence t.cfg answers t.cmdCh o n (runAt t ws)) fun r =>
        (commitRun answers t.cmdCh .brightness { power := (t.light t.cmdCh).power, brightness := t.cmdDb } r,
          .ok)) := by
  obtain hrow | ⟨code0, code1, hrow0, hrow1⟩ := rowCodes_cases t.cfg t.cmdCh o
  · rw [startDim_ends hrow, dimSequence_ends hrow]
    exact endsIn_finishRequest (t := { t with leg := .brightness, op := o }) hs _
  · rw [startDim_sends hrow0 hrow1] at h ⊢
    rw [dimSequence_loops hrow0 hrow1]
    have hsteps : (BitVec.ofNat 7 n).toNat = n := by rw [BitVec.toNat_ofNat]; omega
    exact endsIn_dim h hs rfl hsteps

/-! ## The legs -/

theorem endsIn_planBrightness (hr : Ready t) (hc : Checked t) (hs : SameCommand s t) :
    EndsIn answers s 193 (planBrightness t) ws
      (brightnessPart t.cfg answers t.cmdCh t.cmdSb t.cmdDb (runAt t ws)) := by
  have hinv := inv_planBrightness hr hc
  unfold brightnessPart
  obtain hw | ⟨hsb, hne, h1, h0⟩ | ⟨hsb, hne, h2⟩ := brightnessWork_cases t.cmdSb t.cmdDb (t.light t.cmdCh)
  · rw [planBrightness_noWork hw, brightnessLeg_noWork (r := runAt t ws) hw]
    exact endsIn_finishRequest hs .ok
  · rw [planBrightness_low hsb hne h1 h0] at hinv ⊢
    rw [brightnessLeg_low (r := runAt t ws) hsb hne h1 h0, onSuccess_thenCommit]
    refine endsIn_mono (k := 2) (endsIn_startOnOff hinv hs fun code ws' h => ?_) (by omega)
    exact endsIn_publishLast h hs rfl rfl
  · obtain ⟨⟨-, hl, -⟩, -⟩ := hr
    have hn := dimDelta_natAbs_bounds hne (hc.2 hsb) (reachable_brightness_le (light_reachable hl _))
    rw [planBrightness_dim hsb hne h2] at hinv ⊢
    rw [brightnessLeg_dim (r := runAt t ws) hsb hne h2, onSuccess_thenCommit]
    exact endsIn_mono (endsIn_startDim hinv hs (by omega)) (by omega)

/-- The power leg's publish, and the brightness leg. -/
theorem endsIn_publishPower (h : Inv t) (hs : SameCommand s t) (hp : t.phase = .pub) (hg : t.leg = .power) :
    EndsIn answers s 194 t ws
      (brightnessPart t.cfg answers t.cmdCh t.cmdSb t.cmdDb (publishLight answers t.cmdCh (runAt t ws))) := by
  obtain ⟨⟨hsized, hl, hdone, herr, hres⟩, hc, -, hdelay, -, hpow, -⟩ := invAt_of_inv h hp
  refine endsIn_pub h hp ?_
  rw [pubResponse_power hg, publishLight_runAt]
  have hready : Ready (published (answers ws.length) t) :=
    ⟨⟨hsized, hl, by simpa, by simpa, hres⟩, rfl, hdelay, by simpa using (hpow hg).2.1⟩
  exact endsIn_planBrightness hready hc (sameCommand_published hs _)

theorem powerLegLight_eq (dp : Power) : powerLegLight dp = { power := dp, brightness := powerLegBrightness dp } := by
  cases dp <;> rfl

theorem endsIn_beginRequest (hr : Ready t) (hp : t.status.pLeg = false) (he : t.status.pubErr = false)
    (hs : SameCommand s t) :
    EndsIn answers s 195 (beginRequest t) ws
      (requestProcedure t.cfg answers t.cmdCh t.cmdDp t.cmdSb t.cmdDb (runAt t ws)) := by
  have hinv := inv_beginRequest hr hp he
  obtain ⟨hc, h⟩ | ⟨hc, hsb, hdb, h⟩ | ⟨hc, hb, hpow, h⟩ | ⟨hc, hb, hpow, h⟩ := beginRequest_cases t <;>
    rw [h] at hinv ⊢
  · rw [requestProcedure, if_pos hc]
    exact endsIn_finishRequest hs .invalidChannel
  · rw [requestProcedure, if_neg (Nat.not_le.2 hc), if_pos ⟨hsb, hdb⟩]
    exact endsIn_finishRequest hs .brightnessOutOfRange
  · rw [requestProcedure_checked hc hb, powerLeg_change (r := runAt t ws) hpow, onSuccess_thenCommit, powerLegLight_eq]
    exact endsIn_startOnOff hinv hs fun code ws' h => endsIn_publishPower h hs rfl rfl
  · rw [requestProcedure_checked hc hb, powerLeg_same (r := runAt t ws) hpow]
    exact endsIn_mono (endsIn_planBrightness hr ⟨hc, hb⟩ hs) (by omega)

/-- Settles O54: after its `EXEC` step the request is at most 195 steps from its end. -/
theorem phaseMachineRunsTheProcedure : Obligations.PhaseMachineRunsTheProcedure := by
  intro s ch dp sb db answers n h hp hd hn
  obtain ⟨hr, htx, hpow, herr⟩ := invAt_of_inv h hp
  have ⟨_, hpub, hdelay, _⟩ := hr
  have hout : outstanding s = [] := by simp [outstanding, htx, hpub, hdelay]
  have hmove : movingEvent (answers 0) s = .sequencer := by simp [movingEvent, hp]
  have hstep : perform (movingEvent (answers 0) s) s = .next (beginRequest (latchRequest ch dp sb db s)) := by
    rw [hmove]
    exact sequencerStep_exec hp hd
  have hend := endsIn_beginRequest (answers := answers) (ws := []) (s := latchRequest ch dp sb db s)
    (t := latchRequest ch dp sb db s) hr hpow herr ⟨rfl, rfl, rfl, rfl, rfl⟩
  exact endsIn_step (s := latchRequest ch dp sb db s) (by simp [hp]) hstep (by rw [hout]; exact hend) n hn

end Sys2Proof.Proofs
end

section
/-! What the whole request comes to, read off the pseudocode: its end with `OK` (O55) or an error (O56), the waits of a
dim request (O57) and the bounds (O58). -/

namespace Sys2Proof.Proofs

open Sys2Proof.Machine Sys2Proof.Safety

variable {c : Config} {answers : Nat → Bool} {ch : Channel} {r : Run} {g : Leg} {l : LightState} {m d : Nat}
  {dp : Power} {sb : Bool} {db : Brightness}

/-! ## The light states of a run -/

theorem set_light_self (r : Run) (ch : Channel) : r.ls.set ch.toNat (r.light ch) = r.ls := by
  unfold Run.light
  by_cases h : ch.toNat < r.ls.length
  · rw [List.getD_eq_getElem _ _ h, List.set_getElem_self]
  · exact List.set_eq_of_length_le (Nat.not_lt.1 h)

/-! ## A leg's bit and its commit -/

/-- The leg's bit. -/
def legBit (r : Run) : Leg → Bool
  | .power => r.pLeg
  | .brightness => r.bLeg

theorem commitRun_ls : (commitRun answers ch g l r).ls = r.ls.set ch.toNat l := by cases g <;> rfl

theorem commitRun_light (h : ch.toNat < r.ls.length) : (commitRun answers ch g l r).light ch = l := by
  simp [Run.light, commitRun_ls, h]

theorem commitRun_legBit_same : legBit (commitRun answers ch g l r) g = true := by cases g <;> rfl

theorem commitRun_legBit_other {g' : Leg} (h : g' ≠ g) : legBit (commitRun answers ch g l r) g' = legBit r g' := by
  cases g <;> cases g'
  · exact absurd rfl h
  · rfl
  · rfl
  · exact absurd rfl h

/-- A commit waits for one publish more, of the channel's new entry. -/
theorem commitRun_waits :
    (commitRun answers ch g l r).waits =
      r.waits ++ [.publish
        { channel := ch
          power := ((commitRun answers ch g l r).light ch).power
          brightness := ((commitRun answers ch g l r).light ch).brightness }] := by
  cases g <;> rfl

/-! ## The outcomes of a leg -/

/-- A leg on which nothing was to be done, which `idle` tells, or whose sequence ran and was to commit `l`. -/
def LegOutcome (answers : Nat → Bool) (ch : Channel) (g : Leg) (m d : Nat) (idle : Prop) (l : LightState) (r : Run)
    (x : Run × Option ErrorCode) : Prop :=
  (idle ∧ x = (r, none)) ∨ ∃ y, SendsOnly m d r y ∧ x = thenCommit answers ch g l y

theorem powerLeg_outcome (c : Config) (answers : Nat → Bool) (ch : Channel) (dp : Power) (r : Run) :
    LegOutcome answers ch .power 1 0 (dp = (r.light ch).power) (powerLegLight dp) r (powerLeg c answers ch dp r) := by
  by_cases h : dp = (r.light ch).power
  · exact .inl ⟨h, powerLeg_same h⟩
  · exact .inr ⟨_, onOffSequence_sendsOnly .., powerLeg_change h⟩

/-- The entry the brightness leg commits (42_controller.md R81, R85). -/
def brightnessLegLight (db : Brightness) (l : LightState) : LightState :=
  if db.toNat ≤ 1 then { power := .off, brightness := 0 } else { power := l.power, brightness := db }

theorem sendsOnly_mono {m' d' : Nat} {x : Run × Option ErrorCode} (h : SendsOnly m d r x) (hm : m ≤ m') (hd : d ≤ d') :
    SendsOnly m' d' r x := by
  obtain ⟨he, ws, hx, hsend, hdelay, hpub⟩ := h
  exact ⟨he, ws, hx, hsend.trans hm, hdelay.trans hd, hpub⟩

theorem brightnessLeg_outcome (hdb : sb = true → db.toNat ≤ 64) (hl : (r.light ch).brightness.toNat ≤ 64) :
    LegOutcome answers ch .brightness 128 64 (NoBrightnessWork sb db (r.light ch))
      (brightnessLegLight db (r.light ch)) r (brightnessLeg c answers ch sb db r) := by
  unfold brightnessLegLight
  obtain hw | ⟨hsb, hne, h1, h0⟩ | ⟨hsb, hne, h2⟩ := brightnessWork_cases sb db (r.light ch)
  · exact .inl ⟨hw, brightnessLeg_noWork hw⟩
  · rw [if_pos h1]
    exact .inr ⟨_, sendsOnly_mono (onOffSequence_sendsOnly ..) (by omega) (by omega), brightnessLeg_low hsb hne h1 h0⟩
  · rw [if_neg (by omega)]
    have hn := dimDelta_natAbs_bounds hne (hdb hsb) hl
    exact .inr ⟨_, sendsOnly_mono (dimSequence_sendsOnly ..) (by omega) (by omega), brightnessLeg_dim hsb hne h2⟩

/-- A leg that succeeds leaves its channel's entry as it was to be: the one found, or the one committed. -/
theorem legOutcome_success {idle : Prop} {x : Run × Option ErrorCode}
    (h : LegOutcome answers ch g m d idle l r x) (hx : x.2 = none) :
    (idle ∧ x.1 = r) ∨ ∃ ws, x.1 = commitRun answers ch g l { r with waits := r.waits ++ ws } := by
  obtain ⟨hi, rfl⟩ | ⟨⟨y, _ | e⟩, ⟨-, ws, hy, -⟩, rfl⟩ := h
  · exact .inl ⟨hi, rfl⟩
  · obtain rfl := hy
    exact .inr ⟨ws, rfl⟩
  · cases hx

/-- A leg that fails has only waited, and its error is not `OK`. -/
theorem legOutcome_failure {idle : Prop} {x : Run × Option ErrorCode} {e : ErrorCode}
    (h : LegOutcome answers ch g m d idle l r x) (hx : x.2 = some e) :
    e ≠ .ok ∧ ∃ ws, x.1 = { r with waits := r.waits ++ ws } := by
  obtain ⟨hi, rfl⟩ | ⟨⟨y, _ | e⟩, ⟨he, ws, hy, -⟩, rfl⟩ := h
  · cases hx
  · cases hx
  · cases hx
    exact ⟨fun h => he (congrArg some h), ws, hy⟩

/-! ## The outcomes of a request -/

theorem brightnessPart_eq (c : Config) (answers : Nat → Bool) (ch : Channel) (sb : Bool) (db : Brightness) (r : Run) :
    brightnessPart c answers ch sb db r =
      ((brightnessLeg c answers ch sb db r).1, (brightnessLeg c answers ch sb db r).2.getD .ok) := by
  unfold brightnessPart
  obtain ⟨r', _ | e⟩ := brightnessLeg c answers ch sb db r <;> rfl

/-- A request fails its entry checks, or fails in its power leg, or ends as its brightness leg does. -/
theorem requestProcedure_cases (c : Config) (answers : Nat → Bool) (ch : Channel) (dp : Power) (sb : Bool)
    (db : Brightness) (r : Run) :
    (∃ e, e ≠ .ok ∧ requestProcedure c answers ch dp sb db r = (r, e)) ∨
      (ch.toNat < c.numLights ∧ (sb = true → db.toNat ≤ 64) ∧
        ((∃ e, (powerLeg c answers ch dp r).2 = some e ∧
            requestProcedure c answers ch dp sb db r = ((powerLeg c answers ch dp r).1, e)) ∨
          ((powerLeg c answers ch dp r).2 = none ∧
            requestProcedure c answers ch dp sb db r =
              brightnessPart c answers ch sb db (powerLeg c answers ch dp r).1))) := by
  by_cases hc : c.numLights ≤ ch.toNat
  · exact .inl ⟨.invalidChannel, by simp, if_pos hc⟩
  by_cases hb : sb = true ∧ 64 < db.toNat
  · exact .inl ⟨.brightnessOutOfRange, by simp, (if_neg hc).trans (if_pos hb)⟩
  have hb : sb = true → db.toNat ≤ 64 := fun h => Nat.not_lt.1 fun h' => hb ⟨h, h'⟩
  rw [requestProcedure_checked (Nat.not_le.1 hc) hb]
  obtain ⟨r', _ | e⟩ := powerLeg c answers ch dp r
  · exact .inr ⟨Nat.not_le.1 hc, hb, .inr ⟨rfl, rfl⟩⟩
  · exact .inr ⟨Nat.not_le.1 hc, hb, .inl ⟨e, rfl, rfl⟩⟩

/-- A power leg that succeeds leaves an entry of the requested power, and every other entry as it was. -/
theorem powerLeg_success (hc : ch.toNat < r.ls.length) (hl : (r.light ch).brightness.toNat ≤ 64)
    (hx : (powerLeg c answers ch dp r).2 = none) :
    ((powerLeg c answers ch dp r).1.light ch).power = dp ∧
      ((powerLeg c answers ch dp r).1.light ch).brightness.toNat ≤ 64 ∧
      ∃ l, (powerLeg c answers ch dp r).1.ls = r.ls.set ch.toNat l := by
  obtain ⟨hp, hr⟩ | ⟨ws, hr⟩ := legOutcome_success (powerLeg_outcome c answers ch dp r) hx <;> rw [hr]
  · exact ⟨hp.symm, hl, r.light ch, (set_light_self r ch).symm⟩
  · rw [commitRun_light (r := { r with waits := r.waits ++ ws }) hc]
    exact ⟨rfl, by cases dp <;> decide, _, commitRun_ls⟩

/-! ## The end with `OK` -/

theorem reachable_low {p : Power} (h : Reachable { power := p, brightness := db }) (h1 : db.toNat ≤ 1) :
    ({ power := p, brightness := db } : LightState) = { power := .off, brightness := 0 } :=
  h.elim id fun ⟨h2, _⟩ => absurd (h2.trans h1) (by decide)

/-- For a reachable pair at the entry's power, having nothing to do means that the entry is that pair. -/
theorem light_of_noBrightnessWork (h : Reachable { power := l.power, brightness := db })
    (hw : NoBrightnessWork true db l) : l = { power := l.power, brightness := db } := by
  obtain hw | rfl | ⟨h1, h0⟩ := hw
  · cases hw
  · rfl
  · exact h0.trans (reachable_low h h1).symm

theorem brightnessLegLight_of_reachable (h : Reachable { power := l.power, brightness := db }) :
    brightnessLegLight db l = { power := l.power, brightness := db } := by
  unfold brightnessLegLight
  split
  next h1 => exact (reachable_low h h1).symm
  next => rfl

/-- A brightness leg that ends with `OK` for a reachable pair has written that pair, and nothing else. -/
theorem brightnessPart_ok (hdb : db.toNat ≤ 64) (hl : (r.light ch).brightness.toNat ≤ 64)
    (hp : (r.light ch).power = dp) (hreach : Reachable { power := dp, brightness := db })
    (hok : (brightnessPart c answers ch true db r).2 = .ok) :
    (brightnessPart c answers ch true db r).1.ls = r.ls.set ch.toNat { power := dp, brightness := db } := by
  subst hp
  have hout := brightnessLeg_outcome (c := c) (answers := answers) (sb := true) (fun _ => hdb) hl
  rw [brightnessPart_eq] at hok ⊢
  cases hx : (brightnessLeg c answers ch true db r).2 with
  | some e =>
    rw [hx] at hok
    exact absurd hok (legOutcome_failure hout hx).1
  | none =>
    obtain ⟨hw, hr⟩ | ⟨ws, hr⟩ := legOutcome_success hout hx
    · rw [← light_of_noBrightnessWork hreach hw, set_light_self]
      exact congrArg Run.ls hr
    · rw [← brightnessLegLight_of_reachable hreach]
      exact (congrArg Run.ls hr).trans commitRun_ls

/-- A request that ends with `OK` for a reachable pair has written that pair, and nothing else. -/
theorem requestProcedure_ok (hlen : r.ls.length = c.numLights) (hl : (r.light ch).brightness.toNat ≤ 64)
    (hreach : Reachable { power := dp, brightness := db })
    (hok : (requestProcedure c answers ch dp true db r).2 = .ok) :
    ch.toNat < r.ls.length ∧
      (requestProcedure c answers ch dp true db r).1.ls = r.ls.set ch.toNat { power := dp, brightness := db } := by
  obtain ⟨e, he, h⟩ | ⟨hc, hb, ⟨e, hx, h⟩ | ⟨hx, h⟩⟩ := requestProcedure_cases c answers ch dp true db r <;>
    rw [h] at hok ⊢
  · exact absurd hok he
  · exact absurd hok (legOutcome_failure (powerLeg_outcome ..) hx).1
  · rw [← hlen] at hc
    obtain ⟨hp, hl64, l, hls⟩ := powerLeg_success hc hl hx
    exact ⟨hc, by rw [brightnessPart_ok (hb rfl) hl64 hp hreach hok, hls, List.set_set]⟩

/-- Settles O55: the run that the pseudocode ends with `OK` has written the pair. -/
theorem successfulRequestReachesItsTarget : Obligations.SuccessfulRequestReachesItsTarget := by
  intro s ch dp db answers h hp hd hreach t hok
  obtain ⟨-, -, hls, hstatus, -⟩ := phaseMachineRunsTheProcedure s ch dp true db answers 196 h hp hd le_rfl
  have ⟨hsized, hl, _⟩ := h
  have hok' : (requestProcedure s.cfg answers ch dp true db (runOf s)).2 = .ok := by
    rw [← hok, show t.status = _ from hstatus]
  obtain ⟨hc, hset⟩ :=
    requestProcedure_ok (r := runOf s) hsized.2 (reachable_brightness_le (light_reachable hl ch)) hreach hok'
  have hlight (x : Channel) : t.light x = (s.setLight ch { power := dp, brightness := db }).light x :=
    congrArg (·.getD x.toNat LightState.initial) (hls.trans hset)
  exact ⟨(hlight ch).trans (light_setLight_same s ch _ hc),
    fun x hx => (hlight x).trans (light_setLight_other s ch x _ hx)⟩

/-! ## The end with an error -/

theorem brightnessPart_failed (hdb : sb = true → db.toNat ≤ 64) (hl : (r.light ch).brightness.toNat ≤ 64)
    (hfail : (brightnessPart c answers ch sb db r).2 ≠ .ok) :
    ∃ ws, (brightnessPart c answers ch sb db r).1 = { r with waits := r.waits ++ ws } := by
  rw [brightnessPart_eq] at hfail ⊢
  cases hx : (brightnessLeg c answers ch sb db r).2 with
  | some e => exact (legOutcome_failure (brightnessLeg_outcome hdb hl) hx).2
  | none => simp [hx] at hfail

/-- A request that fails has changed no light state, or has committed its power leg alone. -/
theorem requestProcedure_failed (hlen : r.ls.length = c.numLights) (hl : (r.light ch).brightness.toNat ≤ 64)
    {p : Run × ErrorCode} (hp : requestProcedure c answers ch dp sb db r = p) (hfail : p.2 ≠ .ok) :
    p.1.bLeg = r.bLeg ∧
      (p.1.pLeg = r.pLeg ∧ p.1.ls = r.ls ∨ p.1.pLeg = true ∧ p.1.ls = r.ls.set ch.toNat (powerLegLight dp)) := by
  have hout := powerLeg_outcome c answers ch dp r
  obtain ⟨e, he, h⟩ | ⟨hc, hb, ⟨e, hx, h⟩ | ⟨hx, h⟩⟩ := requestProcedure_cases c answers ch dp sb db r <;>
    rw [hp] at h <;> subst h
  · exact ⟨rfl, .inl ⟨rfl, rfl⟩⟩
  · obtain ⟨-, ws, hr⟩ := legOutcome_failure hout hx
    rw [hr]
    exact ⟨rfl, .inl ⟨rfl, rfl⟩⟩
  · obtain ⟨-, hl64, -⟩ := powerLeg_success (hlen ▸ hc) hl hx
    obtain ⟨ws', hr'⟩ := brightnessPart_failed hb hl64 hfail
    rw [hr']
    obtain ⟨-, hr⟩ | ⟨ws, hr⟩ := legOutcome_success hout hx <;> rw [hr]
    · exact ⟨rfl, .inl ⟨rfl, rfl⟩⟩
    · exact ⟨rfl, .inr ⟨rfl, rfl⟩⟩

/-- Settles O56: the run that the pseudocode ends with an error has committed at most its power leg. -/
theorem failedRequestKeepsOnlyEarlierCommit : Obligations.FailedRequestKeepsOnlyEarlierCommit := by
  intro s ch dp sb db answers h hp hd t hfail
  obtain ⟨-, -, hls, hstatus, -⟩ := phaseMachineRunsTheProcedure s ch dp sb db answers 196 h hp hd le_rfl
  obtain ⟨⟨⟨hsized, hl, -⟩, -, -, hbLeg⟩, -, hpLeg, -⟩ := invAt_of_inv h hp
  have hls : t.ls = _ := hls
  have hstatus : t.status = _ := hstatus
  rw [hstatus] at hfail
  rw [hstatus, hls]
  obtain ⟨hb, ⟨hpl, hset⟩ | ⟨hpl, hset⟩⟩ :=
    requestProcedure_failed (r := runOf s) hsized.2 (reachable_brightness_le (light_reachable hl ch)) rfl hfail <;>
    refine ⟨hb.trans hbLeg, fun h => ?_, fun h => ?_⟩
  · exact hset
  · exact absurd (h.symm.trans (hpl.trans hpLeg)) (by decide)
  · exact absurd (hpl.symm.trans h) (by decide)
  · exact hset

/-! ## The waits of a dim request -/

/-- With every send answered `OK` a dim leg waits for a pair of sends and a delay for each unit, then publishes. -/
theorem brightnessLeg_dim_allOk {code0 code1 : Word} {o : Operation} (hc : ch.toNat < r.ls.length)
    (hne : db ≠ (r.light ch).brightness) (h2 : 2 ≤ db.toNat)
    (ho : o = if (r.light ch).brightness.toNat < db.toNat then .dimUp else .dimDown)
    (h0 : rowCode c ch o false = some code0) (h1 : rowCode c ch o true = some code1) :
    (brightnessLeg c (fun _ => true) ch true db r).1.waits =
      r.waits ++
        (List.replicate (dimDelta db (r.light ch).brightness).natAbs
          [sendOf code0 1, sendOf code1 1, .delay]).flatten ++
        [.publish { channel := ch, power := (r.light ch).power, brightness := db }] := by
  subst ho
  rw [brightnessLeg_dim rfl hne h2, dimSequence_loops h0 h1, dimLoop_allOk]
  refine commitRun_waits.trans ?_
  rw [commitRun_light (by exact hc)]

/-- Settles O57: the power leg has no work, so the waits are the dim leg's. -/
theorem dimSendsExactPairs : Obligations.DimSendsExactPairs := by
  intro s ch db code0 code1 b o h hp hd hc h2 h64 hne hrow0 hrow1
  obtain ⟨hwaits, -⟩ :=
    phaseMachineRunsTheProcedure s ch (s.light ch).power true db (fun _ => true) 196 h hp hd le_rfl
  have hlen : ch.toNat < s.ls.length := h.1.2 ▸ hc
  have hpow : powerLeg s.cfg (fun _ => true) ch (s.light ch).power (runOf s) = (runOf s, none) := powerLeg_same rfl
  rw [hwaits, requestProcedure_checked hc (fun _ => h64), hpow, ← dimDelta_natAbs]
  exact (congrArg (·.1.waits) (brightnessPart_eq s.cfg (fun _ => true) ch true db (runOf s))).trans
    (brightnessLeg_dim_allOk (r := runOf s) hlen hne h2 rfl hrow0 hrow1)

/-! ## The bounds -/

/-- How many of a run's waits are of the kind `q`. -/
def waitCount (q : Wait → Bool) (r : Run) : Nat := (r.waits.filter q).length

/-- From `r` to `r'` there are at most `m` sends and `d` delays, and exactly `n` publishes. -/
def Adds (m d n : Nat) (r r' : Run) : Prop :=
  waitCount Wait.isSend r' ≤ waitCount Wait.isSend r + m ∧ waitCount Wait.isDelay r' ≤ waitCount Wait.isDelay r + d ∧
    waitCount Wait.isPublish r' = waitCount Wait.isPublish r + n

theorem adds_refl (m d : Nat) (r : Run) : Adds m d 0 r r := by simp [Adds]

theorem adds_trans {m' d' n n' : Nat} {r' r'' : Run} (h : Adds m d n r r') (h' : Adds m' d' n' r' r'') :
    Adds (m + m') (d + d') (n + n') r r'' := by
  unfold Adds at *
  omega

theorem legBit_waits (r : Run) (ws : List Wait) (g : Leg) : legBit { r with waits := ws } g = legBit r g := by
  cases g <;> rfl

/-- A leg publishes exactly if it sets its bit, and it leaves the other leg's. -/
theorem legOutcome_adds {idle : Prop} {x : Run × Option ErrorCode} (h : LegOutcome answers ch g m d idle l r x)
    (hg : legBit r g = false) :
    Adds m d (legBit x.1 g).toNat r x.1 ∧ ∀ g', g' ≠ g → legBit x.1 g' = legBit r g' := by
  obtain ⟨-, rfl⟩ | ⟨⟨y, _ | e⟩, ⟨-, ws, hy, hsend, hdelay, hpub⟩, rfl⟩ := h
  · simpa [hg] using adds_refl m d r
  · obtain rfl := hy
    refine ⟨?_, fun g' h => (commitRun_legBit_other h).trans (legBit_waits ..)⟩
    simp [Adds, thenCommit, waitCount, commitRun_waits, commitRun_legBit_same, hsend, hdelay, hpub]
  · obtain rfl := hy
    simp [Adds, thenCommit, waitCount, legBit_waits, hg, hsend, hdelay, hpub]

theorem requestProcedure_adds (hlen : r.ls.length = c.numLights) (hl : (r.light ch).brightness.toNat ≤ 64)
    (hp : r.pLeg = false) (hb : r.bLeg = false) {q : Run × ErrorCode}
    (hq : requestProcedure c answers ch dp sb db r = q) : Adds 129 64 (q.1.pLeg.toNat + q.1.bLeg.toNat) r q.1 := by
  obtain ⟨hadds, hother⟩ := legOutcome_adds (powerLeg_outcome c answers ch dp r) hp
  have hbit : (powerLeg c answers ch dp r).1.bLeg = false := (hother .brightness (by decide)).trans hb
  obtain ⟨e, -, h⟩ | ⟨hc, hdb, ⟨e, -, h⟩ | ⟨hx, h⟩⟩ := requestProcedure_cases c answers ch dp sb db r <;>
    rw [hq] at h <;> subst h
  · simpa [hp, hb] using adds_refl 129 64 r
  · simpa [hbit, legBit] using adds_trans hadds (adds_refl 128 64 _)
  · obtain ⟨-, hl64, -⟩ := powerLeg_success (hlen ▸ hc) hl hx
    rw [brightnessPart_eq]
    obtain ⟨hadds', hother'⟩ := legOutcome_adds (brightnessLeg_outcome (c := c) (answers := answers) hdb hl64) hbit
    have hbit' : (brightnessLeg c answers ch sb db (powerLeg c answers ch dp r).1).1.pLeg = _ :=
      hother' .power (by decide)
    rw [hbit']
    exact adds_trans hadds hadds'

/-- Settles O58: the run of the pseudocode, which starts with no wait and no bit, keeps the bounds. -/
theorem requestEndsWithinBounds : Obligations.RequestEndsWithinBounds := by
  intro s ch dp sb db answers h hp hd run
  obtain ⟨hwaits, hidle, -, hstatus, -⟩ := phaseMachineRunsTheProcedure s ch dp sb db answers 196 h hp hd le_rfl
  obtain ⟨⟨⟨hsized, hl, -⟩, -, -, hbLeg⟩, -, hpLeg, -⟩ := invAt_of_inv h hp
  obtain ⟨hsend, hdelay, hpub⟩ :=
    requestProcedure_adds (c := s.cfg) (answers := answers) (ch := ch) (dp := dp) (sb := sb) (db := db) (r := runOf s)
      hsized.2 (reachable_brightness_le (light_reachable hl ch)) hpLeg hbLeg rfl
  have hwaits : run.2 = _ := hwaits
  have hstatus : run.1.status = _ := hstatus
  have hnone (q : Wait → Bool) : waitCount q (runOf s) = 0 := rfl
  rw [hnone, Nat.zero_add] at hsend hdelay hpub
  rw [hwaits, hstatus]
  exact ⟨hidle, hsend, hdelay, hpub⟩

end Sys2Proof.Proofs
end

/-! # The sequencer family: the steps after a wait, and whose step it is -/

section
/-! The steps after a wait as exact next states (O28, O29, O31), and the step of an accepted command (O44). -/

namespace Sys2Proof.Proofs

open Sys2Proof.Machine Sys2Proof.Safety

variable {s : State}

/-! ## Which response a step of the machine is -/

theorem step_onOffTx {r : TxRequest} {resp : TxResponse} (hp : s.phase = .onOffTx) (hr : s.txOut = some r)
    (he : s.nextEvent = .txPort resp) : step s = .next (onOffResponse resp s.takeEvent) :=
  (step_eq s he).trans (congrArg _ (txPortStep_onOffTx (r := r) (by simpa) (by simpa) resp))

theorem step_dimTx0 {r : TxRequest} {resp : TxResponse} (hp : s.phase = .dimTx0) (hr : s.txOut = some r)
    (he : s.nextEvent = .txPort resp) : step s = .next (dimTx0Response resp s.takeEvent) :=
  (step_eq s he).trans (congrArg _ (txPortStep_dimTx0 (r := r) (by simpa) (by simpa) resp))

theorem step_dimTx1 {r : TxRequest} {resp : TxResponse} (hp : s.phase = .dimTx1) (hr : s.txOut = some r)
    (he : s.nextEvent = .txPort resp) : step s = .next (dimTx1Response resp s.takeEvent) :=
  (step_eq s he).trans (congrArg _ (txPortStep_dimTx1 (r := r) (by simpa) (by simpa) resp))

theorem step_dimDelay (hp : s.phase = .dimDelay) (he : s.nextEvent = .sequencer) :
    step s = .next (dimDelayExpiry s.takeEvent) :=
  (step_eq s he).trans (sequencerStep_dimDelay (by simpa))

theorem step_pub {u : StateUpdate} {resp : PubResponse} (hp : s.phase = .pub) (hu : s.pubOut = some u)
    (he : s.nextEvent = .sink resp) : step s = .next (pubResponse resp s.takeEvent) :=
  (step_eq s he).trans (congrArg _ (sinkStep_pub (u := u) (by simpa) (by simpa) resp))

/-! ## What the responses write -/

theorem committed_eq (st : Status) (g : Leg) :
    st.committed g =
      { st with pLeg := st.pLeg || decide (g = .power), bLeg := st.bLeg || decide (g = .brightness) } := by
  cases g <;> simp [Status.committed]

theorem published_eq (st : Status) (resp : PubResponse) :
    st.published resp = { st with pubErr := st.pubErr || decide (resp = .publishError) } := by
  cases resp <;> simp [Status.published]

theorem onOffCommitted_eq (s : State) :
    onOffCommitted s =
      if s.leg = .power then { power := s.cmdDp, brightness := if s.cmdDp = .on then 64 else 0 }
      else { power := .off, brightness := 0 } := by
  unfold onOffCommitted
  cases s.leg with
  | power => cases s.cmdDp <;> rfl
  | brightness => rfl

/-- Taking the choice of agent gives values to the model's own two fields, whatever they are. -/
theorem takeEvent_eq_with (s : State) : ∃ es n, s.takeEvent = { s with schedule := es, drawn := n } :=
  ⟨_, _, takeEvent_eq s⟩

/-- Settles O28: the response is `onOffResponse`, whose commit writes `onOffCommitted`. -/
theorem onOffResponseCommits : Obligations.OnOffResponseCommits := by
  intro s r hp hr
  obtain ⟨es, n, htake⟩ := takeEvent_eq_with s
  refine ⟨fun he => ?_, fun he => ?_⟩ <;> rw [step_onOffTx hp hr he, htake]
  · rw [onOffResponse_ok, onOffCommitted_eq, commitAndPublish, committed_eq]
    rfl
  · rfl

/-- Settles O29: each phase has one response, and the delay's expiry goes by the steps left. -/
theorem dimStepsAdvance : Obligations.DimStepsAdvance := by
  refine ⟨fun s r hp hr he => ?row1, fun s r hp hr he => ?delay, fun s r hp hr he => ?error,
    fun s hp he hn => ?next, fun s hp he hz => ?commit⟩ <;> obtain ⟨es, n, htake⟩ := takeEvent_eq_with s
  case row1 => rw [step_dimTx0 hp hr he, htake]; rfl
  case delay => rw [step_dimTx1 hp hr he, htake]; rfl
  case error =>
    obtain hp | hp := hp
    · rw [step_dimTx0 hp hr he, htake]; rfl
    · rw [step_dimTx1 hp hr he, htake]; rfl
  case next => rw [step_dimDelay hp he, dimDelayExpiry_more (by simpa), htake]; rfl
  case commit => rw [step_dimDelay hp he, dimDelayExpiry_last (by simpa), htake]; rfl

/-! ## After a publish -/

/-- The last publish of a request, and that of a power leg with no brightness to change, end it. -/
theorem pubResponse_ends (h : s.leg = .brightness ∨ s.cmdSb = false ∨ s.cmdDb = (s.light s.cmdCh).brightness)
    (resp : PubResponse) :
    pubResponse resp s = finishRequest .ok { s with pubOut := none, status := s.status.published resp } := by
  by_cases hg : s.leg = .brightness
  · exact pubResponse_brightness hg resp
  · have hpower : s.leg = .power := by cases hleg : s.leg <;> simp_all
    exact (pubResponse_power hpower resp).trans
      (planBrightness_done (s := { s with pubOut := none, status := s.status.published resp }) (h.resolve_left hg))

/-- The publish of a power leg goes on as the request does that finds the power as it now is. -/
theorem pubResponse_power_continues (hg : s.leg = .power) (hc : s.cmdCh.toNat < s.cfg.numLights)
    (hb : s.cmdDb.toNat ≤ 64) (hdp : s.cmdDp = (s.light s.cmdCh).power) (resp : PubResponse) :
    .next (pubResponse resp s) =
      exec (.requestState s.cmdCh s.cmdDp s.cmdSb s.cmdDb)
        { s with pubOut := none, status := s.status.published resp } :=
  congrArg Host.Outcome.next ((pubResponse_power hg resp).trans
    (beginRequest_plan (s := { s with pubOut := none, status := s.status.published resp }) hc (fun _ => hb) hdp).symm)

/-- Settles O31: the response is recorded, and then the request ends or plans its brightness leg. -/
theorem publishResponseContinues : Obligations.PublishResponseContinues := by
  intro s u resp hp hu he st
  obtain ⟨es, n, htake⟩ := takeEvent_eq_with s
  have hst : s.status.published resp = st := published_eq s.status resp
  rw [step_pub hp hu he, ← hst]
  refine ⟨fun hend => ?_, fun hg hc hb hdp => ?_⟩
  · rw [pubResponse_ends (by simpa), htake]
    rfl
  · rw [htake]
    exact pubResponse_power_continues (s := { s with schedule := es, drawn := n }) hg hc hb hdp resp

/-! ## The step of an accepted command -/

theorem withFetchWord_toNat (s : State) (w : Word) : s.withFetchWord 32 w.toNat = s.placeCommand w := by
  rw [State.withFetchWord, Nat.mod_eq_of_lt w.isLt, BitVec.ofNat_toNat, BitVec.setWidth_eq]

/-- Settles O44: `step_exec`, and for a command's own word O1. -/
theorem stepRunsDecodedCommand : Obligations.StepRunsDecodedCommand := by
  refine ⟨fun s i he hp hd => step_exec he hp hd, fun s i => ?_⟩
  rw [withFetchWord_toNat]
  exact step_exec (s := s.placeCommand (encode i)) rfl rfl (decodeOfEncodeIsIdentity i)

end Sys2Proof.Proofs
end

section
/-! Whose step it is (O50, O52): at most one port has a request, and in a busy phase one agent alone can move the
block on (43_sequencer.md R97, R103). -/

namespace Sys2Proof.Proofs

open Sys2Proof.Machine Sys2Proof.Safety

variable {s t : State}

/-- Settles O50: no phase waits for both ports. -/
theorem atMostOnePortRequest : Obligations.AtMostOnePortRequest := by
  intro s t hs ht
  obtain ⟨-, -, ⟨htx, hpub, -⟩, -⟩ := stepKeepsInvariant s t hs ht
  by_contra hboth
  obtain ⟨hsend, hpublish⟩ := not_or.1 hboth
  have hp : t.phase = .pub := hpub.1 hpublish
  obtain h | h | h := htx.1 hsend <;> rw [hp] at h <;> cases h

/-! ## An enabled step leaves its phase -/

theorem phase_of_execKeeps (h : ExecKeeps s t) : t.phase = .idle ∨ Sending t := by
  obtain ⟨-, -, -, -, -, -, hphase, -⟩ := h
  exact hphase.imp And.left And.left

theorem exec_leaves {i : Instr} (ht : exec i s = .next t) : t.phase ≠ .exec := by
  obtain ⟨t', ht', hkeeps⟩ := execFrame i s
  cases ht.symm.trans ht'
  obtain h | h | h | h := phase_of_execKeeps hkeeps <;> simp [h]

theorem illegalCommand_leaves (s : State) : (illegalCommand s).phase ≠ .exec := nofun

theorem dimDelayExpiry_leaves (s : State) : (dimDelayExpiry s).phase ≠ .dimDelay := by
  obtain ⟨-, e⟩ | ⟨-, e⟩ := dimDelayExpiry_cases s <;> simp [e]

theorem onOffResponse_leaves (resp : TxResponse) (s : State) : (onOffResponse resp s).phase ≠ .onOffTx := by
  cases resp <;> simp [onOffResponse]

theorem dimTx0Response_leaves (resp : TxResponse) (s : State) : (dimTx0Response resp s).phase ≠ .dimTx0 := by
  cases resp <;> simp [dimTx0Response]

theorem dimTx1Response_leaves (resp : TxResponse) (s : State) : (dimTx1Response resp s).phase ≠ .dimTx1 := by
  cases resp <;> simp [dimTx1Response]

theorem pubResponse_leaves (resp : PubResponse) (s : State) : (pubResponse resp s).phase ≠ .pub := by
  cases hg : s.leg with
  | power =>
    rw [pubResponse_power hg]
    have hkeeps := planBrightness_keeps { s with pubOut := none, status := s.status.published resp }
    obtain h | h | h | h := phase_of_execKeeps hkeeps <;> simp [h]
  | brightness => simp [pubResponse_brightness hg]

/-! ## When a step leaves the block as it is -/

theorem sequencerStep_stays_iff (s : State) :
    sequencerStep s = .next s ↔ ¬ (s.phase = .exec ∨ s.phase = .dimDelay) := by
  constructor
  · rintro h (hp | hp)
    · cases hd : decode s.cmd with
      | ok i => exact exec_leaves ((sequencerStep_exec hp hd).symm.trans h) hp
      | error d =>
        have hill : illegalCommand s = s := Host.Outcome.next.inj ((sequencerStep_illegal hp hd).symm.trans h)
        exact illegalCommand_leaves s (hill.symm ▸ hp)
    · have hexp : dimDelayExpiry s = s := Host.Outcome.next.inj ((sequencerStep_dimDelay hp).symm.trans h)
      exact dimDelayExpiry_leaves s (hexp.symm ▸ hp)
  · intro h
    obtain ⟨hexec, hdelay⟩ := not_or.1 h
    exact sequencerStep_other hexec hdelay

theorem txPortStep_stays_iff (h : Inv s) (resp : TxResponse) : txPortStep resp s = s ↔ ¬ Sending s := by
  obtain ⟨-, -, ⟨htx, -⟩, -⟩ := h
  obtain ⟨-, hp, e⟩ | ⟨-, hp, e⟩ | ⟨-, hp, e⟩ | ⟨hoff, e⟩ := txPortStep_cases resp s <;> rw [e]
  · exact iff_of_false (fun hstay => onOffResponse_leaves resp s (hstay.symm ▸ hp)) (not_not_intro (.inl hp))
  · exact iff_of_false (fun hstay => dimTx0Response_leaves resp s (hstay.symm ▸ hp)) (not_not_intro (.inr (.inl hp)))
  · exact iff_of_false (fun hstay => dimTx1Response_leaves resp s (hstay.symm ▸ hp)) (not_not_intro (.inr (.inr hp)))
  · exact iff_of_true rfl fun hsend => hoff ⟨htx.2 hsend, hsend⟩

theorem sinkStep_stays_iff (h : Inv s) (resp : PubResponse) : sinkStep resp s = s ↔ s.phase ≠ .pub := by
  obtain ⟨-, -, ⟨-, hpub, -⟩, -⟩ := h
  obtain ⟨-, hp, e⟩ | ⟨hoff, e⟩ := sinkStep_cases resp s <;> rw [e]
  · exact iff_of_false (fun hstay => pubResponse_leaves resp s (hstay.symm ▸ hp)) (not_not_intro hp)
  · exact iff_of_true rfl fun hp => hoff ⟨hpub.2 hp, hp⟩

/-! ## The agent a busy phase waits for -/

theorem sequencer_mem_movingEvents (answer : Bool) (hp : s.phase ≠ .idle) :
    .sequencer ∈ [movingEvent answer s, movingEvent (!answer) s] ↔ s.phase = .exec ∨ s.phase = .dimDelay := by
  unfold movingEvent
  cases h : s.phase <;> simp_all

theorem txPort_mem_movingEvents (answer : Bool) (resp : TxResponse) (s : State) :
    .txPort resp ∈ [movingEvent answer s, movingEvent (!answer) s] ↔ Sending s := by
  unfold movingEvent
  cases h : s.phase <;> cases answer <;> cases resp <;> simp [Sending, h]

theorem sink_mem_movingEvents (answer : Bool) (resp : PubResponse) (s : State) :
    .sink resp ∈ [movingEvent answer s, movingEvent (!answer) s] ↔ s.phase = .pub := by
  unfold movingEvent
  cases h : s.phase <;> cases answer <;> cases resp <;> simp

/-- Settles O52: an agent's step changes the state in just the phases that wait for that agent. -/
theorem oneAgentMovesABusyBlock : Obligations.OneAgentMovesABusyBlock := by
  intro s answer e h hp he
  cases e with
  | sequencer => exact (sequencerStep_stays_iff s).trans (not_congr (sequencer_mem_movingEvents answer hp).symm)
  | txPort resp =>
    rw [txPort_mem_movingEvents, ← txPortStep_stays_iff h resp]
    exact .of_eq (Host.Outcome.next.injEq ..)
  | sink resp =>
    rw [sink_mem_movingEvents, ← Ne, ← sinkStep_stays_iff h resp]
    exact .of_eq (Host.Outcome.next.injEq ..)
  | _ => simp at he

end Sys2Proof.Proofs
end

/-! # The host register family: the writes of the host, and what a busy block reads -/

section
/-! The writes of the host register window (O36 to O38), and the reads of a busy block (O51). -/

namespace Sys2Proof.Proofs

open Sys2Proof.Machine Sys2Proof.Safety

variable {s : State}

/-! ## The writes -/

/-- A step of the host's is its write, on the state with the choice taken. -/
theorem step_hostWrite {k : WordIndex} {v : Word} (h : s.nextEvent = .hostWrite k v) :
    step s = .next (regWrite k v s.takeEvent) :=
  step_eq s h

theorem writeCmd_idle (h : s.phase = .idle) (v : Word) : writeCmd v s = accept v s := if_pos h

theorem writeCmd_busy (h : s.phase ≠ .idle) (v : Word) :
    writeCmd v s = { s with status := s.status.overrunSet } := if_neg h

/-- Settles O36: taking the choice leaves the phase, and an idle block accepts; the read of `BUSY` is O32's. -/
theorem idleCommandWriteIsAccepted : Obligations.IdleCommandWriteIsAccepted := by
  refine ⟨fun s v hp h => ?_, fun s => (statusReadsItsFields s).1⟩
  have hp' : s.takeEvent.phase = .idle := (takeEvent_phase s).trans hp
  rw [step_hostWrite h, regWrite_cmd, writeCmd_idle hp']
  rfl

/-- Settles O37: taking the choice leaves the phase and `STATUS`, and a busy block refuses. -/
theorem busyCommandWriteIsRefused : Obligations.BusyCommandWriteIsRefused := by
  intro s v hp h
  have hp' : s.takeEvent.phase ≠ .idle := (takeEvent_phase s).trans_ne hp
  rw [step_hostWrite h, regWrite_cmd, writeCmd_busy hp', takeEvent_status]
  rfl

/-- Settles O38: a write to `QSEL` is stored, and one to any other word leaves `QSEL` too. -/
theorem otherWritesSetOnlyQsel : Obligations.OtherWritesSetOnlyQsel := by
  intro s k v h0 h
  rw [step_hostWrite h]
  by_cases h3 : k = 3
  · subst h3
    exact ⟨v.setWidth 8, congrArg _ (regWrite_qsel v _), fun _ => BitVec.toNat_setWidth 8 v, absurd rfl⟩
  · rw [regWrite_other h0 h3, ← takeEvent_qsel]
    exact ⟨_, rfl, fun hk => absurd hk h3, fun _ => rfl⟩

/-! ## The reads of a busy block -/

/-- The invariant holds the results at 0 while busy, and the reads show them. -/
theorem busyReads_eq_zero (h : Inv s) (hbusy : (regRead 1 s).getLsbD 0 = true) :
    (regRead 1 s).getLsbD 1 = false ∧ (regRead 1 s).extractLsb' 4 4 = 0 ∧ regRead 2 s = 0 := by
  obtain ⟨-, -, -, -, -, -, -, ⟨hheld, herrOk⟩, -⟩ := h
  obtain ⟨hreadBusy, hreadDone, hreadErr, -⟩ := statusReadsItsFields s
  obtain ⟨hdone, hresult⟩ := hheld (hreadBusy.1 hbusy)
  refine ⟨hreadDone.trans hdone, ?err, hresult⟩
  case err =>
    rw [herrOk hdone] at hreadErr
    exact BitVec.eq_of_toNat_eq (by simpa using hreadErr)

/-- Settles O51: the step keeps the invariant. -/
theorem busyReadsShowNoResult : Obligations.BusyReadsShowNoResult :=
  fun s t h ht => busyReads_eq_zero (stepKeepsInvariant s t h ht)

end Sys2Proof.Proofs
end

/-! # The exceptions family: late responses -/

section
/-! A response that finds no outstanding request (O42; 60_exceptions.md R118, 70_reset_and_hazards.md R125). -/

namespace Sys2Proof.Proofs

open Sys2Proof.Machine

variable {s : State}

theorem step_txPort_none {resp : TxResponse} (hr : s.txOut = none) (he : s.nextEvent = .txPort resp) :
    step s = .next s.takeEvent :=
  (step_eq s he).trans (congrArg _ (txPortStep_none (by simpa) resp))

theorem step_sink_none {resp : PubResponse} (hu : s.pubOut = none) (he : s.nextEvent = .sink resp) :
    step s = .next s.takeEvent :=
  (step_eq s he).trans (congrArg _ (sinkStep_none (by simpa) resp))

/-- Settles O42: taking the choice leaves both ports' requests, and a port's step with none is no change. -/
theorem lateResponseIsDiscarded : Obligations.LateResponseIsDiscarded :=
  fun _ => ⟨fun _ => step_txPort_none, fun _ => step_sink_none⟩

end Sys2Proof.Proofs
end

/-! # The reset family: what the reset step sets -/

section
/-! The step of the reset, from any state (O41; 70_reset_and_hazards.md R124). -/

namespace Sys2Proof.Proofs

open Sys2Proof.Machine

variable {s : State}

/-- The step of the reset is `resetStep`, on the state with the choice taken. -/
theorem step_reset (h : s.nextEvent = .reset) : step s = .next (resetStep s.takeEvent) :=
  step_eq s h

theorem statusWord_clear : statusWord false Status.clear = 0 := by decide

@[simp] theorem resetStep_busy (s : State) : (resetStep s).busy = false := rfl

theorem regRead_status_resetStep (s : State) : regRead 1 (resetStep s) = 0 := by
  rw [regRead_status, resetStep_busy, resetStep_status, statusWord_clear]

/-- Settles O41: the parameters and the number of lights are those from before the choice, `STATUS` is clear in an
idle block, and every other item is at the reset value that its `resetStep` lemma names. -/
theorem resetStepSetsEverything : Obligations.ResetStepSetsEverything := by
  intro s h
  refine ⟨resetStep s.takeEvent, step_reset h, ?cfg, ?lights, resetStep_cmd _, regRead_status_resetStep _, ?items⟩
  case cfg => rw [resetStep_cfg, takeEvent_cfg]
  case lights => rw [resetStep_ls, takeEvent_cfg, LightState.initial]
  case items => simp

end Sys2Proof.Proofs
end
